-- ==== Sys2Proof/Word.lean ====
section
/-! DEFINITION. The widths of 10_state.md: a byte of any space (R50), a 16-bit register, a 32-bit register or
command word. -/

namespace Sys2Proof

/-- A byte: "A byte is 8 bits in every space" (20_memory.md R50). -/
abbrev Byte := BitVec 8

/-- A 16-bit register or checksum. -/
abbrev Half := BitVec 16

/-- A 32-bit register, table word, window word or command word. -/
abbrev Word := BitVec 32

end Sys2Proof
end

