-- ==== Sys2Proof/Config.lean ====
section
/-! DEFINITION. What is fixed or free from the outside: the parameters of 00_scope.md R13, the data a slot holds
(10_state.md R27 to R32), one answer of the protocol back-end (43_backend_port.md R214), and the free values. -/

namespace Sys2Proof

/-- The parameters of 00_scope.md R13. `BUF_SIZE` and `N_TOT` are derived in Machine/Ops.lean. The state carries
them as a field that no step changes, so a statement over all states is a statement over all parameter values.
`rtoReload` is the table of `RTO_RELOAD(n)` for n from 1 to 255, entry 0 being `RTO_RELOAD(1)` (log 14). -/
structure Config where
  /-- `LL_HDR_LEN`, written `L` in the spec. -/
  llHdrLen : Nat
  /-- `MTU`. -/
  mtu : Nat
  /-- `SND_SIZE`. -/
  sndSize : Nat
  /-- `N_TCP`. -/
  nTcp : Nat
  /-- `UDP_EN`. -/
  udpEn : Bool
  /-- `N_UDP`. -/
  nUdp : Nat
  /-- `IP_TTL`. -/
  ipTtl : Byte
  /-- `RTO_RELOAD`. -/
  rtoReload : List Half
  /-- `MAX_RTX`. -/
  maxRtx : Byte
  /-- `KA_IDLE`. -/
  kaIdle : Half
  /-- `KA_INTVL`. -/
  kaIntvl : Half
  /-- `MAX_KA`. -/
  maxKa : Byte
  /-- `UDP_ZERO_AS_FFFF`. -/
  udpZeroAsFfff : Bool
  deriving DecidableEq, Repr

/-- The constraint column of 00_scope.md R13. -/
def Config.ok (c : Config) : Bool :=
  decide (40 ≤ c.mtu) && decide (c.mtu + c.llHdrLen ≤ 65535) && decide (c.sndSize ≤ 4294967296) &&
  decide (1 ≤ c.nTcp) && decide (c.nTcp ≤ 256) &&
  (if c.udpEn then decide (1 ≤ c.nUdp) && decide (c.nUdp ≤ 256) else decide (c.nUdp = 0)) &&
  decide (c.rtoReload.length = 255) && c.rtoReload.all (fun r => decide (r ≠ 0)) &&
  decide (c.kaIdle ≠ 0) && decide (c.kaIntvl ≠ 0)

/-- The test configuration of 92_eei_decisions.md section 2. DESIGN CHOICE (log 1), unsafe: the spec fixes no value,
and `State.reset` has to name one; no statement about all states uses these numbers. -/
def Config.reference : Config where
  llHdrLen := 14
  mtu := 1500
  sndSize := 4096
  nTcp := 8
  udpEn := true
  nUdp := 4
  ipTtl := 64
  rtoReload := List.replicate 255 3
  maxRtx := 2
  kaIdle := 10
  kaIntvl := 5
  maxKa := 2
  udpZeroAsFfff := true

/-- One slot of the TCP table (10_state.md R27 to R30). -/
structure TcpSlot where
  laddr : Word
  raddr : Word
  lport : Half
  rport : Half
  active : Bool
  tag : BitVec 4
  rtxTimer : Half
  rtxCount : Byte
  kaTimer : Half
  kaCount : Byte
  deriving DecidableEq, Repr, Inhabited

/-- One slot of the UDP table (10_state.md R32). -/
structure UdpSlot where
  laddr : Word
  raddr : Word
  lport : Half
  rport : Half
  active : Bool
  deriving DecidableEq, Repr, Inhabited

/-- A TCP slot with every field 0 (10_state.md R46). -/
def TcpSlot.zero : TcpSlot := ⟨0, 0, 0, 0, false, 0, 0, 0, 0, 0⟩

/-- A UDP slot with every field 0 (10_state.md R46). -/
def UdpSlot.zero : UdpSlot := ⟨0, 0, 0, 0, false⟩

/-- The request kinds of 43_backend_port.md R211. -/
inductive PbeKind where
  | segIn
  | segNew
  | segReject
  | retransmit
  | keepalive
  | abort
  | pollSend
  | udpIn
  | udpPoll
  deriving DecidableEq, Repr

/-- One request on the port: a kind and an 8-bit slot index, 0 when the kind has none (43_backend_port.md R225). -/
structure PbeReq where
  kind : PbeKind
  slot : Byte
  deriving DecidableEq, Repr

/-- What the protocol back-end does in answer to one request: what it leaves in each thing 43_backend_port.md R214
lets it change (`none` and an empty list: unchanged). Any answer is an answer of some back-end that keeps R214, since
Machine/Backend.lean applies no write outside the frame (log 4, log 5). -/
structure PbeAnswer where
  length : Option Half
  appdata : Option Half
  sndptr : Option Word
  sndlen : Option Half
  /-- The named slot after a request that names a TCP slot. -/
  tcp : Option TcpSlot
  /-- The named slot after a request that names a UDP slot. -/
  udp : Option UdpSlot
  /-- Bytes written to `buf`, in order. -/
  bufWrites : List (Nat × Byte)
  /-- Bytes written to `snd`, in order. -/
  sndWrites : List (Nat × Byte)
  deriving DecidableEq, Repr, Inhabited

/-- The answer "write `LENGTH <- 0` and return, changing nothing else". -/
def PbeAnswer.nothing : PbeAnswer := ⟨some 0, none, none, none, none, none, [], []⟩

/-- FREE VALUE (log 2). The byte of `buf` at an address not written since the reset or re-entry that is the given draw:
"reads an arbitrary byte" (10_state.md R46), "a draw per byte, fixed until written" (93_implementation_defined.md U6). -/
opaque Config.freeBufByte : Nat → Nat → Byte

/-- FREE VALUE (log 3). The byte of `snd` at an address the model has seen no write to: the contents "are not the
block's" (10_state.md R46). -/
opaque Config.freeSndByte : Nat → Nat → Byte

/-- FREE VALUE (log 4). The back-end's answer to a request for which `State.answers` lists none: whether and what it
sends is its own (93_implementation_defined.md U8). -/
opaque Config.freeAnswer : Nat → PbeAnswer

/-- FREE VALUE (log 10). A register after a re-entry, by draw and window offset: "from then on unspecified"
(60_exceptions.md R249). -/
opaque Config.freeReg : Nat → Nat → Word

/-- FREE VALUE (log 10). A TCP slot after a re-entry, by draw and index (60_exceptions.md R249). -/
opaque Config.freeTcpSlot : Nat → Nat → TcpSlot

/-- FREE VALUE (log 10). A UDP slot after a re-entry, by draw and index (60_exceptions.md R249). -/
opaque Config.freeUdpSlot : Nat → Nat → UdpSlot

/-- FREE VALUE (log 10). How many of its requests an abandoned command had made: it ends "at an unspecified point of its
pseudocode" (60_exceptions.md R249). -/
opaque Config.freeRequestCount : Nat → Nat

/-- FREE VALUE (log 10). How many bytes of `snd` the back-end had written in the last request of an abandoned command
(60_exceptions.md R249). -/
opaque Config.freeWriteCount : Nat → Nat

end Sys2Proof
end

