-- ==== Sys2Proof/Machine/State.lean ====
section
/-! DEFINITION. Everything the spec gives the block (10_state.md), the host's coming actions, the back-end's coming
answers, and the state after reset (10_state.md R46). -/

namespace Sys2Proof.Machine

/-- Bytes by address in one canonical form: addresses strictly rising; an address with no entry has no written value. -/
abbrev Memory := List Host.Cell

/-- The contract faults of 60_exceptions.md R246. -/
inductive ContractFault where
  /-- The command word is illegal (30_encoding.md R85). -/
  | illegalCmd
  /-- `SLOT` is outside its table (60_exceptions.md R245). -/
  | slotRange
  /-- A `CMD` write arrived while a command was executing (60_exceptions.md R249). -/
  | reentry
  /-- A range of bytes is not where it must be (40_checksum.md R107, R113; 41_dispatch.md R131, R155). -/
  | range
  /-- The back-end left a packet that cannot be finalised (41_dispatch.md R153). -/
  | badResponse
  deriving DecidableEq, Repr

/-- The width of a host access to the window. 20_memory.md R54 names bytes and 32-bit words and calls the rest "another width".
DESIGN CHOICE (log 24): the other widths are 16 bits and, as one, everything wider than 32 bits. -/
inductive Width where
  | byte
  | half
  | word
  /-- Any width above 32 bits; no data crosses on such an access (R53, R54), so its value is never used. -/
  | wide
  deriving DecidableEq, Repr

/-- One action of the host (70_reset_and_hazards.md R284; 30_encoding.md R90). -/
inductive HostOp where
  /-- A write of the given width at a window offset; a narrow write uses the low bits of the value. A word written to `CMD`
  is a command (10_state.md R47). -/
  | write (width : Width) (off : BitVec 17) (value : Word)
  /-- A read of the given width at a window offset. -/
  | read (width : Width) (off : BitVec 17)
  /-- The host writes a byte of the send-data region, its own memory (10_state.md R25). -/
  | sndWrite (addr : Word) (value : Byte)
  /-- The host reads a byte of the send-data region (70_reset_and_hazards.md R284). -/
  | sndRead (addr : Word)
  /-- `first` is written to `CMD` and, before that command has ended, `second` is (60_exceptions.md R249; log 10). -/
  | overlap (first second : Word)
  /-- The reset input (70_reset_and_hazards.md R270, R272). -/
  | reset
  deriving DecidableEq, Repr

/-- The state of one device instance. -/
structure State where
  /-- The parameters; no step changes them (70_reset_and_hazards.md R274). -/
  cfg : Config
  /-- `buf` (10_state.md R20): the bytes written since reset. -/
  buf : Memory
  /-- `LENGTH` (10_state.md R21). -/
  length : Half
  /-- `APPDATA` (10_state.md R22). -/
  appdata : Half
  /-- `SNDPTR` (10_state.md R23). -/
  sndptr : Word
  /-- `SNDLEN` (10_state.md R23). -/
  sndlen : Half
  /-- `snd` (10_state.md R25): the bytes the model has seen written. -/
  snd : Memory
  /-- The TCP table (10_state.md R26). -/
  tcp : List TcpSlot
  /-- The UDP table (10_state.md R26, R32). -/
  udp : List UdpSlot
  /-- `CSBASE` (10_state.md R35). -/
  csbase : Half
  /-- `CSLEN` (10_state.md R35). -/
  cslen : Half
  /-- `CSRES` (10_state.md R35). -/
  csres : Half
  /-- `ACC32` (10_state.md R36). -/
  acc32 : Word
  /-- `OP16` (10_state.md R36). -/
  op16 : Half
  /-- `scan_idx` of `SCAN` (10_state.md R37). -/
  scan : BitVec 10
  /-- `IPID` (10_state.md R38). -/
  ipid : Half
  /-- `STATUS.FAULT` (10_state.md R39). -/
  faultBit : Bool
  /-- `STATUS.FCODE` (10_state.md R39). -/
  fcode : Byte
  /-- MODEL's own: what the host does next, oldest first (log 6). -/
  script : List HostOp
  /-- MODEL's own: the data of the host's last read (log 7). -/
  rdata : Word
  /-- MODEL's own: what the back-end does at its coming requests, oldest first (log 4). -/
  answers : List PbeAnswer
  /-- MODEL's own: the requests made, newest first (log 20). -/
  requests : List PbeReq
  /-- MODEL's own: how many free values have been drawn (log 21). -/
  draws : Nat
  /-- MODEL's own: the draw behind the unwritten bytes of `buf` (log 2). -/
  bufDraw : Nat
  /-- MODEL's own: the draw behind the unwritten bytes of `snd` (log 3). -/
  sndDraw : Nat
  deriving DecidableEq, Repr

/-- Why the machine stops. No command raises one: a contract fault is a next state (60_exceptions.md R247). -/
inductive Fault where
  /-- The host action `sndWrite` or `sndRead` names an address at or beyond `SND_SIZE`, which does not exist (20_memory.md R50). Raised by
  Machine/Window.lean. Safe: the machine stops (log 9). -/
  | sndAddress
  deriving DecidableEq, Repr

/-- Why the machine has no meaning for what it is asked. -/
inductive Refusal where
  /-- A command with no meaning in this model, by its mnemonic. Raised by no arm: every command has its meaning. Safe. -/
  | notModelled (mnemonic : String)
  /-- A host access wider than a byte to a byte of BUF: such an access "does not exist" (20_memory.md R53). Raised by
  Machine/Window.lean. Safe: the machine stops (log 8). -/
  | bufWide
  deriving DecidableEq, Repr

/-- The machine right after reset (10_state.md R46, 70_reset_and_hazards.md R270, R271): every register and every field of
every slot 0, not faulted, idle, no byte of `buf` written. The parameters are the reference ones (log 1); the host does
nothing and no answer is listed until a program is loaded (log 6). -/
def State.reset : State where
  cfg := Config.reference
  buf := []
  length := 0
  appdata := 0
  sndptr := 0
  sndlen := 0
  snd := []
  tcp := List.replicate Config.reference.nTcp TcpSlot.zero
  udp := List.replicate Config.reference.nUdp UdpSlot.zero
  csbase := 0
  cslen := 0
  csres := 0
  acc32 := 0
  op16 := 0
  scan := 0
  ipid := 0
  faultBit := false
  fcode := 0
  script := []
  rdata := 0
  answers := []
  requests := []
  draws := 1
  bufDraw := 0
  sndDraw := 0

end Sys2Proof.Machine
end

