-- ==== Sys2Proof/Machine/Flags.lean ====
section
/-! DEFINITION. The one status register, `STATUS` (10_state.md R39, R42), and the fault codes (60_exceptions.md R246).
The block has no condition codes: no command computes a flag (40_checksum.md, "Flags: none"). -/

namespace Sys2Proof.Machine

/-- The value `FCODE` takes (60_exceptions.md R246). -/
def faultCode : ContractFault → Byte
  | .illegalCmd => 1
  | .slotRange => 2
  | .reentry => 3
  | .range => 4
  | .badResponse => 5

/-- `STATUS` as the host reads it: bit 0 `FAULT`, bits [15:8] `FCODE`, the others 0 (10_state.md R42). -/
def statusWord (s : State) : Word :=
  (0 : Half) ++ (s.fcode ++ ((0 : BitVec 7) ++ BitVec.ofBool s.faultBit))

end Sys2Proof.Machine
end

