-- ==== Sys2Proof/Machine/Ops.lean ====
section
/-! DEFINITION. The named operations on the state: bytes of `buf` and `snd`, slots, registers, entering a contract fault
and the one way out of it, reset. -/

namespace Sys2Proof.Machine

/-! ### Derived parameters (00_scope.md R13) -/

/-- `BUF_SIZE = MTU + LL_HDR_LEN` (00_scope.md R13). -/
def bufSize (c : Config) : Nat := c.mtu + c.llHdrLen

/-- `N_TOT = N_TCP + (N_UDP if UDP_EN else 0)` (00_scope.md R13). -/
def totalSlots (c : Config) : Nat := c.nTcp + (if c.udpEn then c.nUdp else 0)

/-- `RTO_RELOAD(n)` (00_scope.md R13). Outside 1 to 255, where no rule asks, and beyond a short table, 1 (log 14). -/
def rtoReload (c : Config) (n : Byte) : Half := c.rtoReload.getD (n.toNat - 1) 1

/-! ### Memory: a canonical list of cells -/

/-- The value written at an address, if one was. -/
def memRead : Memory → Nat → Option Byte
  | [], _ => none
  | (a, b) :: rest, x => if x = a then some b else memRead rest x

/-- Write one byte, keeping the addresses strictly rising. -/
def memWrite : Memory → Nat → Byte → Memory
  | [], x, v => [(x, v)]
  | (a, b) :: rest, x, v =>
    if x < a then (x, v) :: (a, b) :: rest
    else if x = a then (x, v) :: rest
    else (a, b) :: memWrite rest x v

/-- The canonical form: addresses strictly rising. An unlisted address has no value, so no entry equals it. -/
abbrev Memory.wf (m : Memory) : Prop := m.Pairwise (fun x y => x.1 < y.1)

/-! ### Bytes of the two regions -/

/-- `buf[a]`: the byte written there, or a free byte fixed until written (10_state.md R46; log 2). -/
def State.bufByte (s : State) (a : Nat) : Byte :=
  (memRead s.buf a).getD (Config.freeBufByte s.bufDraw a)

/-- `snd[a]`: the byte seen written there, or a free byte (10_state.md R25, R46; log 3). -/
def State.sndByte (s : State) (a : Nat) : Byte :=
  (memRead s.snd a).getD (Config.freeSndByte s.sndDraw a)

/-- `buf[a] <- v` (00_scope.md R15). -/
def State.storeBuf (s : State) (a : Nat) (v : Byte) : State := { s with buf := memWrite s.buf a v }

/-- `snd[a] <- v`, by the host or the back-end; no command writes `snd` (20_memory.md R51). -/
def State.storeSnd (s : State) (a : Nat) (v : Byte) : State := { s with snd := memWrite s.snd a v }

/-- Bytes stored from `buf[a]` upwards, in order. -/
def State.storeBytes : State → Nat → List Byte → State
  | s, _, [] => s
  | s, a, v :: rest => (s.storeBuf a v).storeBytes (a + 1) rest

/-! ### Registers -/

/-- `LENGTH <- v`. -/
def State.setLength (s : State) (v : Half) : State := { s with length := v }

/-- `APPDATA <- v`. -/
def State.setAppdata (s : State) (v : Half) : State := { s with appdata := v }

/-- `SNDPTR <- v`. -/
def State.setSndptr (s : State) (v : Word) : State := { s with sndptr := v }

/-- `SNDLEN <- v`. -/
def State.setSndlen (s : State) (v : Half) : State := { s with sndlen := v }

/-- `CSBASE <- v`. -/
def State.setCsbase (s : State) (v : Half) : State := { s with csbase := v }

/-- `CSLEN <- v`. -/
def State.setCslen (s : State) (v : Half) : State := { s with cslen := v }

/-- `CSRES <- v`. -/
def State.setCsres (s : State) (v : Half) : State := { s with csres := v }

/-- `ACC32 <- v`. -/
def State.setAcc32 (s : State) (v : Word) : State := { s with acc32 := v }

/-- `OP16 <- v`. -/
def State.setOp16 (s : State) (v : Half) : State := { s with op16 := v }

/-- `scan_idx <- v`. -/
def State.setScan (s : State) (v : BitVec 10) : State := { s with scan := v }

/-- `IPID <- v`. -/
def State.setIpid (s : State) (v : Half) : State := { s with ipid := v }

/-- `STATUS.FAULT` and `STATUS.FCODE` written. -/
def State.setStatus (s : State) (fault : Bool) (code : Byte) : State :=
  { s with faultBit := fault, fcode := code }

/-- The host's next actions. -/
def State.setScript (s : State) (ops : List HostOp) : State := { s with script := ops }

/-- The data of a host read (log 7). -/
def State.setRdata (s : State) (v : Word) : State := { s with rdata := v }

/-! ### Slots -/

/-- `tcp[k]`; an index outside the table, which every command excludes first, reads a zero slot (log 23). -/
def State.tcpSlot (s : State) (k : Nat) : TcpSlot := s.tcp.getD k TcpSlot.zero

/-- `udp[k]`; as `tcpSlot`. -/
def State.udpSlot (s : State) (k : Nat) : UdpSlot := s.udp.getD k UdpSlot.zero

/-- `tcp[k] <- v`: the table is never resized (10_state.md R26). -/
def State.setTcp (s : State) (k : Nat) (v : TcpSlot) : State := { s with tcp := s.tcp.set k v }

/-- `udp[k] <- v`. -/
def State.setUdp (s : State) (k : Nat) (v : UdpSlot) : State := { s with udp := s.udp.set k v }

/-! ### How a piece of a command ends -/

/-- Where the pseudocode stands: it goes on from a state, or a `raise` has ended the command in a state. -/
inductive Run where
  | on (s : State)
  | raised (s : State)
  deriving DecidableEq, Repr

/-- The next piece of pseudocode: "nothing after the `raise` is performed" (60_exceptions.md R247). -/
def Run.andThen : Run → (State → Run) → Run
  | .on s, f => f s
  | .raised s, _ => .raised s

/-- The state reached. -/
def Run.state : Run → State
  | .on s => s
  | .raised s => s

/-- The end of a command: a contract fault too is a next state (60_exceptions.md R247). -/
def Run.outcome (r : Run) : Host.Outcome State Fault Refusal := .next r.state

/-- `raise ContractFault(code)`: `STATUS.FCODE <- code`, `STATUS.FAULT <- 1`, "the command ends"; every earlier write
stays, nothing is saved, "control goes nowhere" (60_exceptions.md R247). -/
def raise (c : ContractFault) (s : State) : Run := .raised (s.setStatus true (faultCode c))

/-- Reset, the one way out of the faulted state (70_reset_and_hazards.md R270, 60_exceptions.md R248, R251): every register
and slot 0, `buf` unspecified again, `snd` untouched (10_state.md R46). The parameters, the host's script and last read, the back-end
and its log are not the block's (log 19). -/
def resetBlock (s : State) : State where
  cfg := s.cfg
  buf := []
  length := 0
  appdata := 0
  sndptr := 0
  sndlen := 0
  snd := s.snd
  tcp := s.tcp.map (fun _ => TcpSlot.zero)
  udp := s.udp.map (fun _ => UdpSlot.zero)
  csbase := 0
  cslen := 0
  csres := 0
  acc32 := 0
  op16 := 0
  scan := 0
  ipid := 0
  faultBit := false
  fcode := 0
  script := s.script
  rdata := s.rdata
  answers := s.answers
  requests := s.requests
  draws := s.draws + 1
  bufDraw := s.draws
  sndDraw := s.sndDraw

end Sys2Proof.Machine
end

