-- ==== Sys2Proof/Machine/Operands.lean ====
section
/-! DEFINITION. Where the commands find their operands and how a checksum is computed: byte order (20_memory.md R52), the
two-region view (R55 to R57), the header fields (41_dispatch.md R132), the arithmetic of 40_checksum.md R100 to R102 and the
common body `UPPER` of R113. -/

namespace Sys2Proof.Machine

/-! ### Byte order -/

/-- `be16(h, l) = h * 256 + l` (00_scope.md R15). -/
def be16 (h l : Byte) : Nat := h.toNat * 256 + l.toNat

/-- Two bytes in network order as a 16-bit number (10_state.md R27). -/
def half16 (h l : Byte) : Half := h ++ l

/-- `be32` of four bytes in network order (00_scope.md R15, 10_state.md R27). -/
def word32 (b0 b1 b2 b3 : Byte) : Word := half16 b0 b1 ++ half16 b2 b3

/-- `hi8(v) = v[15:8]` (00_scope.md R15). -/
def hi8 (v : Half) : Byte := v.extractLsb' 8 8

/-- `lo8(v) = v[7:0]` (00_scope.md R15). -/
def lo8 (v : Half) : Byte := v.extractLsb' 0 8

/-- The two bytes of a 16-bit number, most significant first (20_memory.md R52). -/
def bytes16 (v : Half) : List Byte := [hi8 v, lo8 v]

/-- The four bytes of a 32-bit number, most significant first (20_memory.md R52). -/
def bytes32 (v : Word) : List Byte :=
  [v.extractLsb' 24 8, v.extractLsb' 16 8, v.extractLsb' 8 8, v.extractLsb' 0 8]

/-! ### Checksum arithmetic -/

/-- `wsum`: the sum of the big-endian 16-bit words, an odd last byte being the high byte of a word whose low byte is 0
(40_checksum.md R100). -/
def wsum : List Byte → Nat
  | [] => 0
  | [b] => be16 b 0
  | h :: l :: rest => be16 h l + wsum rest

/-- One end-around carry: `N[15:0] + (N >> 16)` (40_checksum.md R101). -/
def foldStep (n : Nat) : Nat := n % 65536 + n / 65536

/-- `foldStep` repeated until the number is below 2^16, at most the given number of times. -/
def foldFrom : Nat → Nat → Nat
  | 0, n => n
  | k + 1, n => if n < 65536 then n else foldFrom k (foldStep n)

/-- `fold(N)` (40_checksum.md R101); `N` steps are always enough, since a step lowers a number of 2^16 or more. -/
def fold (n : Nat) : Nat := foldFrom n n

/-- `csum16(s) = ~fold(wsum(s))` (40_checksum.md R102). -/
def csum16 (bytes : List Byte) : Half := ~~~ BitVec.ofNat 16 (fold (wsum bytes))

/-! ### The two-region view -/

/-- The payload is split exactly when `SNDLEN != 0` (10_state.md R23). -/
def State.split (s : State) : Bool := decide (s.sndlen ≠ 0)

/-- `hb = min(LENGTH, APPDATA)` (20_memory.md R55). -/
def headerBound (s : State) : Nat := min s.length.toNat s.appdata.toNat

/-- `VIEW_OK` (20_memory.md R57), on naturals, so that no sum wraps (40_checksum.md R120). -/
def viewOk (s : State) : Bool :=
  decide (s.length.toNat ≤ bufSize s.cfg) &&
  (!s.split ||
    (decide (s.length.toNat - headerBound s ≤ s.sndlen.toNat) &&
     decide (s.sndptr.toNat + (s.length.toNat - headerBound s) ≤ s.cfg.sndSize)))

/-- `LB(i)`, the logical byte `i` (20_memory.md R56). -/
def logicalByte (s : State) (i : Nat) : Byte :=
  if s.split && decide (s.appdata.toNat ≤ i) then s.sndByte (s.sndptr.toNat + (i - s.appdata.toNat))
  else s.bufByte i

/-- `buf[a : a + n]`. -/
def bufRange (s : State) (a n : Nat) : List Byte := (List.range n).map (fun i => s.bufByte (a + i))

/-- `[LB(i) for i from a to a + n - 1]`. -/
def logicalRange (s : State) (a n : Nat) : List Byte := (List.range n).map (fun i => logicalByte s (a + i))

/-- The logical packet, "the byte sequence the driver must put on the wire" (20_memory.md R55). -/
def logicalPacket (s : State) : List Byte := logicalRange s 0 s.length.toNat

/-! ### Header fields, by offset from `L` (41_dispatch.md R132) -/

/-- `buf[L + k]`. -/
def headerByte (s : State) (k : Nat) : Byte := s.bufByte (s.cfg.llHdrLen + k)

/-- `be16(buf[L+k], buf[L+k+1])` as a natural. -/
def headerNat (s : State) (k : Nat) : Nat := be16 (headerByte s k) (headerByte s (k + 1))

/-- The 16-bit field at `k`. -/
def headerHalf (s : State) (k : Nat) : Half := half16 (headerByte s k) (headerByte s (k + 1))

/-- The 32-bit field at `k`. -/
def headerWord (s : State) (k : Nat) : Word :=
  word32 (headerByte s k) (headerByte s (k + 1)) (headerByte s (k + 2)) (headerByte s (k + 3))

/-- The total-length field (41_dispatch.md R132, offset 2). -/
def totalLength (s : State) : Nat := headerNat s 2

/-- The IP version field, bits [7:4] of offset 0. -/
def versionField (s : State) : Nat := (headerByte s 0).toNat / 16

/-- The IP header-length field, bits [3:0] of offset 0, in 32-bit words. -/
def headerLengthField (s : State) : Nat := (headerByte s 0).toNat % 16

/-- The TCP header length in bytes: bits [7:4] of offset 32, times 4 (41_dispatch.md R131 step 8). -/
def tcpHeaderLength (s : State) : Nat := (headerByte s 32).toNat / 16 * 4

/-! ### The checksums of the current packet -/

/-- The value `IPCSUM` computes: `csum16(buf[L : L + 20])` (40_checksum.md R110). -/
def ipChecksum (s : State) : Half := csum16 (bufRange s s.cfg.llHdrLen 20)

/-- `PH(proto, seglen)`: source and destination address, a zero byte, the protocol, the length (40_checksum.md R111). -/
def pseudoHeader (s : State) (proto : Byte) (seglen : Nat) : List Byte :=
  bufRange s (s.cfg.llHdrLen + 12) 4 ++ bufRange s (s.cfg.llHdrLen + 16) 4 ++ [0, proto] ++
    bytes16 (BitVec.ofNat 16 seglen)

/-- The bytes `UPPER` sums: the pseudo-header and the segment through the split view, "as one byte sequence"
(40_checksum.md R112, R113). -/
def upperBytes (s : State) (proto : Byte) : List Byte :=
  pseudoHeader s proto (totalLength s - 20) ++ logicalRange s (s.cfg.llHdrLen + 20) (totalLength s - 20)

/-- The two checks of `UPPER`: the view is valid, and `20 <= totlen` and `L + totlen <= LENGTH` (40_checksum.md R113). -/
def upperOk (s : State) : Bool :=
  viewOk s && !(decide (s.length.toNat < totalLength s + s.cfg.llHdrLen) || decide (totalLength s < 20))

/-- `UPPER(proto)`; `none` stands for its `raise ContractFault(RANGE)` (40_checksum.md R113). -/
def upper (proto : Byte) (s : State) : Option Half :=
  if upperOk s then some (csum16 (upperBytes s proto)) else none

/-- Protocol number 6, TCP (40_checksum.md R111). -/
def protoTcp : Byte := 6

/-- Protocol number 17, UDP (40_checksum.md R111). -/
def protoUdp : Byte := 17

end Sys2Proof.Machine
end

