-- ==== Sys2Proof/Machine/Checksum.lean ====
section
/-! DEFINITION. The checksum unit's five commands (40_checksum.md R105 to R115). -/

namespace Sys2Proof.Machine

/-- `ACC32 <- (ACC32 + zext_32(OP16)) mod 2^32` (40_checksum.md R105, R106). -/
def execAcc32 (s : State) : Host.Outcome State Fault Refusal :=
  .next (s.setAcc32 (s.acc32 + s.op16.setWidth 32))

/-- `ICSUM` over `buf[CSBASE : CSBASE + CSLEN]`, read raw from `buf` (40_checksum.md R107, R108). -/
def execIcsum (s : State) : Host.Outcome State Fault Refusal :=
  (if bufSize s.cfg < s.csbase.toNat + s.cslen.toNat then raise .range s
   else .on (s.setCsres (csum16 (bufRange s s.csbase.toNat s.cslen.toNat)))).outcome

/-- `IPCSUM`: the fixed-size IP header region; it cannot fault (40_checksum.md R110). -/
def execIpcsum (s : State) : Host.Outcome State Fault Refusal := .next (s.setCsres (ipChecksum s))

/-- `CSRES <- UPPER(proto)` (40_checksum.md R113). -/
def upperCommand (proto : Byte) (s : State) : Run :=
  match upper proto s with
  | some c => .on (s.setCsres c)
  | none => raise .range s

/-- `TCPCSUM` (40_checksum.md R114). -/
def execTcpcsum (s : State) : Host.Outcome State Fault Refusal := (upperCommand protoTcp s).outcome

/-- `UDPCSUM`: the plain value, with no substitution for 0 (40_checksum.md R115). -/
def execUdpcsum (s : State) : Host.Outcome State Fault Refusal := (upperCommand protoUdp s).outcome

end Sys2Proof.Machine
end

