-- ==== Sys2Proof/Machine/Backend.lean ====
section
/-! DEFINITION. The protocol back-end port: one request, synchronous and nested in the command that makes it
(43_backend_port.md R210, 20_memory.md R65), with the frame condition of 43_backend_port.md R214 kept by construction. -/

namespace Sys2Proof.Machine

/-- The code on the request port (43_backend_port.md R211). -/
def pbeCode : PbeKind → BitVec 4
  | .segIn => 0
  | .segNew => 1
  | .segReject => 2
  | .retransmit => 3
  | .keepalive => 4
  | .abort => 5
  | .pollSend => 6
  | .udpIn => 7
  | .udpPoll => 8

/-- A request of the kind names a TCP slot (43_backend_port.md R211). -/
def namesTcp : PbeKind → Bool
  | .segIn => true
  | .segNew => true
  | .segReject => false
  | .retransmit => true
  | .keepalive => true
  | .abort => true
  | .pollSend => true
  | .udpIn => false
  | .udpPoll => false

/-- A request of the kind names a UDP slot (43_backend_port.md R211). -/
def namesUdp : PbeKind → Bool
  | .segIn => false
  | .segNew => false
  | .segReject => false
  | .retransmit => false
  | .keepalive => false
  | .abort => false
  | .pollSend => false
  | .udpIn => true
  | .udpPoll => true

/-- Take the answer to the next request: the first one listed, or a free one (log 4). -/
def nextAnswer (s : State) : PbeAnswer × State :=
  match s.answers with
  | a :: rest => (a, { s with answers := rest })
  | [] => (Config.freeAnswer s.draws, { s with draws := s.draws + 1 })

/-- The request as the port carries it (43_backend_port.md R225). -/
def logRequest (k : PbeKind) (slot : Nat) (s : State) : State :=
  { s with requests := ⟨k, BitVec.ofNat 8 slot⟩ :: s.requests }

/-- The back-end's writes to `buf`: it may write `buf[L : BUF_SIZE]` and nothing else (43_backend_port.md R214). -/
def pbeBufWrites : List (Nat × Byte) → State → State
  | [], s => s
  | (a, v) :: rest, s =>
    pbeBufWrites rest (if s.cfg.llHdrLen ≤ a ∧ a < bufSize s.cfg then s.storeBuf a v else s)

/-- The back-end's writes to `snd` (43_backend_port.md R214). -/
def pbeSndWrites : List (Nat × Byte) → State → State
  | [], s => s
  | (a, v) :: rest, s => pbeSndWrites rest (if a < s.cfg.sndSize then s.storeSnd a v else s)

/-- The slot a request of a TCP kind names, as the back-end leaves it. -/
def pbeTcpSlot (slot : Nat) (a : PbeAnswer) (s : State) : State :=
  match a.tcp with
  | some t => s.setTcp slot t
  | none => s

/-- The slot a request of a UDP kind names, as the back-end leaves it. -/
def pbeUdpSlot (slot : Nat) (a : PbeAnswer) (s : State) : State :=
  match a.udp with
  | some u => s.setUdp slot u
  | none => s

/-- "every field of the one slot the request names (no slot for `SEG_REJECT`)" (43_backend_port.md R214). -/
def pbeSlot (k : PbeKind) (slot : Nat) (a : PbeAnswer) (s : State) : State :=
  if namesTcp k then pbeTcpSlot slot a s
  else if namesUdp k then pbeUdpSlot slot a s
  else s

/-- The four registers the back-end may write (43_backend_port.md R214). -/
def pbeRegisters (a : PbeAnswer) (s : State) : State :=
  (((s.setLength (a.length.getD s.length)).setAppdata (a.appdata.getD s.appdata)).setSndptr
    (a.sndptr.getD s.sndptr)).setSndlen (a.sndlen.getD s.sndlen)

/-- What one answer does. -/
def applyAnswer (k : PbeKind) (slot : Nat) (a : PbeAnswer) (s : State) : State :=
  pbeRegisters a (pbeSlot k slot a (pbeSndWrites a.sndWrites (pbeBufWrites a.bufWrites s)))

/-- `PBE(kind, slot)` (43_backend_port.md R210). -/
def pbe (k : PbeKind) (slot : Nat) (s : State) : State :=
  applyAnswer k slot (nextAnswer s).1 (logRequest k slot (nextAnswer s).2)

end Sys2Proof.Machine
end

