-- ==== Sys2Proof/Machine/Finalise.lean ====
section
/-! DEFINITION. Completing an outbound packet: `TCP_FINALISE` and `UDP_FINALISE` (41_dispatch.md R150 to R157). -/

namespace Sys2Proof.Machine

/-- Store a 16-bit number at offset `k` of the headers, most significant byte first (20_memory.md R52). -/
def storeHeader (s : State) (k : Nat) (v : Half) : State := s.storeBytes (s.cfg.llHdrLen + k) (bytes16 v)

/-- `h = IPCSUM(); buf[L+10] <- hi8(h); buf[L+11] <- lo8(h)` (41_dispatch.md R152, R157). -/
def storeIpChecksum (s : State) : State := storeHeader s 10 (ipChecksum s)

/-- The preconditions of `TCP_FINALISE` (41_dispatch.md R153). -/
def tcpResponseOk (s : State) : Bool :=
  viewOk s && decide (s.cfg.llHdrLen + 40 ≤ s.length.toNat) &&
  decide (s.cfg.llHdrLen + totalLength s = s.length.toNat) &&
  (!s.split || decide (s.cfg.llHdrLen + 40 ≤ s.appdata.toNat))

/-- Both checksum fields 0 (41_dispatch.md R152). -/
def tcpZeroed (s : State) : State := storeHeader (storeHeader s 10 0) 36 0

/-- The stores of `TCP_FINALISE` (41_dispatch.md R152). The internal `TCPCSUM()` finds its checks already made, so its `RANGE`
is never raised here. -/
def tcpFill (s : State) : Run :=
  match upper protoTcp (tcpZeroed s) with
  | some c => .on (storeIpChecksum (storeHeader (tcpZeroed s) 36 c))
  | none => raise .range (tcpZeroed s)

/-- `TCP_FINALISE` (41_dispatch.md R152, R153). -/
def tcpFinalise (s : State) : Run :=
  if s.length = 0 then .on s
  else if tcpResponseOk s then tcpFill s
  else raise .badResponse s

/-- How many payload bytes `UDP_FINALISE` finds in place: `SNDLEN` of them in `snd`, else those of `buf[L+28 : LENGTH]`
(41_dispatch.md R154); 0 is "nothing to send". -/
def udpPayload (s : State) : Nat :=
  if s.split then s.sndlen.toNat else s.length.toNat - (s.cfg.llHdrLen + 28)

/-- The range checks of 41_dispatch.md R155. -/
def udpFits (s : State) : Bool :=
  decide (s.cfg.llHdrLen + 28 + udpPayload s ≤ bufSize s.cfg) &&
  (!s.split || decide (s.sndptr.toNat + s.sndlen.toNat ≤ s.cfg.sndSize))

/-- The 28 header bytes of 41_dispatch.md R156, both checksum fields 0, for slot contents `e`, identification `id` and
payload length `n`. -/
def udpHeaders (c : Config) (e : UdpSlot) (id : Half) (n : Nat) : List Byte :=
  [0x45, 0x00] ++ bytes16 (BitVec.ofNat 16 (28 + n)) ++ bytes16 id ++ [0x00, 0x00, c.ipTtl, protoUdp, 0x00, 0x00] ++
    bytes32 e.laddr ++ bytes32 e.raddr ++ bytes16 e.lport ++ bytes16 e.rport ++
    bytes16 (BitVec.ofNat 16 (8 + n)) ++ [0x00, 0x00]

/-- Header construction (41_dispatch.md R156): `IPID` first, then the headers, then `APPDATA` and `LENGTH`. -/
def udpBuild (e : UdpSlot) (n : Nat) (s : State) : State :=
  (((s.setIpid (s.ipid + 1)).storeBytes s.cfg.llHdrLen (udpHeaders s.cfg e (s.ipid + 1) n)).setAppdata
    (BitVec.ofNat 16 (s.cfg.llHdrLen + 28))).setLength (BitVec.ofNat 16 (s.cfg.llHdrLen + 28 + n))

/-- The checksum as stored: a computed 0x0000 is stored as 0xFFFF when `UDP_ZERO_AS_FFFF` (41_dispatch.md R157). -/
def udpStored (c : Config) (v : Half) : Half := if v = 0 ∧ c.udpZeroAsFfff = true then 0xFFFF else v

/-- The checksums (41_dispatch.md R157). The internal `UDPCSUM()` cannot raise here. -/
def udpFill (s : State) : Run :=
  match upper protoUdp s with
  | some c => .on (storeIpChecksum (storeHeader s 26 (udpStored s.cfg c)))
  | none => raise .range s

/-- `UDP_FINALISE(u)` (41_dispatch.md R154 to R157). -/
def udpFinalise (u : Nat) (s : State) : Run :=
  if udpPayload s = 0 then .on (s.setLength 0)
  else if udpFits s then udpFill (udpBuild (s.udpSlot u) (udpPayload s) s)
  else raise .range s

end Sys2Proof.Machine
end

