-- ==== Sys2Proof/Machine/Polling.lean ====
section
/-! DEFINITION. The connection-state polling controller: `TCP_POLL` and `UDP_POLL` (42_polling.md). -/

namespace Sys2Proof.Machine

/-- A request of a TCP kind and what the block does with the answer: `PBE(kind, s); TCP_FINALISE`. -/
def tcpRequest (k : PbeKind) (slot : Nat) (s : State) : Run := tcpFinalise (pbe k slot s)

/-- One tick off a timer: "a timer that is 0 is stopped and stays 0" (42_polling.md R184). -/
def tickDown (t : Half) : Half := if t = 0 then 0 else t - 1

/-- Step 5: both timers of the slot decremented (42_polling.md R184). -/
def ageSlot (t : TcpSlot) : TcpSlot := { t with rtxTimer := tickDown t.rtxTimer, kaTimer := tickDown t.kaTimer }

/-- What teardown leaves of a slot: inactive, CLOSED, timers and counts 0, identity kept (42_polling.md R188). -/
def closedSlot (t : TcpSlot) : TcpSlot :=
  { t with active := false, tag := 0, rtxTimer := 0, rtxCount := 0, kaTimer := 0, kaCount := 0 }

/-- The slot after a retransmission is decided: count incremented, timer reloaded from the incremented count
(42_polling.md R185). -/
def retransmitSlot (c : Config) (t : TcpSlot) : TcpSlot :=
  { t with rtxCount := t.rtxCount + 1, rtxTimer := rtoReload c (t.rtxCount + 1) }

/-- The slot after a keepalive probe is decided (42_polling.md R186). -/
def probeSlot (c : Config) (t : TcpSlot) : TcpSlot :=
  { t with kaCount := t.kaCount + 1, kaTimer := c.kaIntvl }

/-- `TEARDOWN(s)`: the request first, so that the block's clearing wins (42_polling.md R188). -/
def teardown (k : Nat) (s : State) : Run :=
  (tcpRequest .abort k s).andThen (fun s => .on (s.setTcp k (closedSlot (s.tcpSlot k))))

/-- Step 6, the retransmission timer expired: teardown at the bound, else retransmit; `t` is the aged slot, with a keepalive expiry of
the same poll put off by one tick (42_polling.md R185, R187). -/
def pollRetransmit (k : Nat) (t : TcpSlot) (s : State) : Run :=
  if s.cfg.maxRtx.toNat ≤ t.rtxCount.toNat then teardown k (s.setTcp k t)
  else tcpRequest .retransmit k (s.setTcp k (retransmitSlot s.cfg t))

/-- Step 7, the keepalive timer expired alone: teardown at the bound, else probe (42_polling.md R186). -/
def pollKeepalive (k : Nat) (t : TcpSlot) (s : State) : Run :=
  if s.cfg.maxKa.toNat ≤ t.kaCount.toNat then teardown k (s.setTcp k t)
  else tcpRequest .keepalive k (s.setTcp k (probeSlot s.cfg t))

/-- Steps 5 to 8 for an active slot whose contents before the poll are `t` (42_polling.md R181). -/
def pollActive (k : Nat) (t : TcpSlot) (s : State) : Run :=
  if t.rtxTimer = 1 then
    pollRetransmit k (if t.kaTimer = 1 then { ageSlot t with kaTimer := 1 } else ageSlot t) s
  else if t.kaTimer = 1 then pollKeepalive k (ageSlot t) s
  else tcpRequest .pollSend k (s.setTcp k (ageSlot t))

/-- `TCP_POLL` with slot `k` (42_polling.md R181 to R189). -/
def tcpPoll (k : Nat) (s : State) : Run :=
  if s.cfg.nTcp ≤ k then raise .slotRange s
  else if (s.tcpSlot k).active then pollActive k (s.tcpSlot k) ((s.setLength 0).setSndlen 0)
  else .on (s.setLength 0)

/-- `UDP_POLL` with slot `k` (42_polling.md R195, R196). -/
def udpPoll (k : Nat) (s : State) : Run :=
  if s.cfg.nUdp ≤ k then raise .slotRange s
  else if (s.udpSlot k).active then udpFinalise k (pbe .udpPoll k ((s.setLength 0).setSndlen 0))
  else .on (s.setLength 0)

/-- `TCP_POLL` (42_polling.md R181). -/
def execTcpPoll (slot : Byte) (s : State) : Host.Outcome State Fault Refusal := (tcpPoll slot.toNat s).outcome

/-- `UDP_POLL` (42_polling.md R195). -/
def execUdpPoll (slot : Byte) (s : State) : Host.Outcome State Fault Refusal := (udpPoll slot.toNat s).outcome

end Sys2Proof.Machine
end

