-- ==== Sys2Proof/Machine/Dispatcher.lean ====
section
/-! DEFINITION. The packet-frame parser and dispatcher: the five event commands (41_dispatch.md). -/

namespace Sys2Proof.Machine

/-! ### EV_DATA -/

/-- Why an inbound frame is dropped, in the order of 60_exceptions.md R241. "The names are this spec's labels and exist nowhere
in the hardware": no state holds one. -/
inductive DropCause where
  | short
  | version
  | hlen
  | totlen
  | frag
  | ipcsum
  | proto
  | tcphdr
  | tcpcsum
  | udphdr
  | udpcsum
  | noslot
  deriving DecidableEq, Repr

/-- Steps 1 to 6, on the IP header (41_dispatch.md R133 to R138). -/
def ipDrop (s : State) : Option DropCause :=
  if s.length.toNat < s.cfg.llHdrLen + 20 then some .short
  else if versionField s ≠ 4 then some .version
  else if headerLengthField s ≠ 5 then some .hlen
  else if totalLength s < 20 ∨ s.length.toNat < s.cfg.llHdrLen + totalLength s then some .totlen
  else if headerByte s 6 &&& 0x3F ≠ 0 ∨ headerByte s 7 ≠ 0 then some .frag
  else if ipChecksum s ≠ 0 then some .ipcsum
  else none

/-- Steps 8 and 9, on the TCP header (41_dispatch.md R140, R141). -/
def tcpDrop (s : State) : Option DropCause :=
  if totalLength s < 40 then some .tcphdr
  else if tcpHeaderLength s < 20 ∨ totalLength s < 20 + tcpHeaderLength s then some .tcphdr
  else if upper protoTcp s ≠ some 0 then some .tcpcsum
  else none

/-- Steps 13 and 14, on the UDP header: a zero checksum field is accepted unverified (41_dispatch.md R146, R147). -/
def udpDrop (s : State) : Option DropCause :=
  if totalLength s < 28 then some .udphdr
  else if headerNat s 24 ≠ totalLength s - 20 then some .udphdr
  else if headerNat s 26 ≠ 0 ∧ upper protoUdp s ≠ some 0 then some .udpcsum
  else none

/-- The four-field match of 41_dispatch.md R143 against a slot's identity: packet destination to local side, source to remote. -/
def identityMatch (s : State) (laddr raddr : Word) (lport rport : Half) : Bool :=
  decide (laddr = headerWord s 16) && decide (raddr = headerWord s 12) &&
  decide (lport = headerHalf s 22) && decide (rport = headerHalf s 20)

/-- A TCP slot that is active and has the packet's identity (41_dispatch.md R143). -/
def tcpMatches (s : State) (t : TcpSlot) : Bool := t.active && identityMatch s t.laddr t.raddr t.lport t.rport

/-- A UDP slot that is active and has the packet's identity (41_dispatch.md R148). -/
def udpMatches (s : State) (u : UdpSlot) : Bool := u.active && identityMatch s u.laddr u.raddr u.lport u.rport

/-- The least matching TCP slot (41_dispatch.md R143). -/
def findTcp (s : State) : Option Nat := s.tcp.findIdx? (tcpMatches s)

/-- The least inactive TCP slot (41_dispatch.md R145). -/
def freeTcp (s : State) : Option Nat := s.tcp.findIdx? (fun t => !t.active)

/-- The least matching UDP slot (41_dispatch.md R148). -/
def findUdp (s : State) : Option Nat := s.udp.findIdx? (udpMatches s)

/-- Traffic from the peer refreshes an enabled keepalive (41_dispatch.md R144). -/
def refreshSlot (c : Config) (t : TcpSlot) : TcpSlot :=
  if t.kaTimer = 0 then t else { t with kaTimer := c.kaIdle, kaCount := 0 }

/-- `drop` (00_scope.md R15, 60_exceptions.md R240). -/
def dropFrame (s : State) : Run := .on (s.setLength 0)

/-- Steps 11 and 12: the validated segment goes to its slot, to a free slot, or is rejected (41_dispatch.md R143 to R145). -/
def tcpDeliver (s : State) : Run :=
  match findTcp s with
  | some k => tcpRequest .segIn k (s.setTcp k (refreshSlot s.cfg (s.tcpSlot k)))
  | none =>
    match freeTcp s with
    | some f => tcpRequest .segNew f s
    | none => tcpRequest .segReject 0 s

/-- `TCP_IN` (41_dispatch.md R131). -/
def tcpIn (s : State) : Run :=
  match tcpDrop s with
  | some _ => dropFrame s
  | none => tcpDeliver (s.setAppdata (BitVec.ofNat 16 (s.cfg.llHdrLen + 20 + tcpHeaderLength s)))

/-- Step 15: the validated datagram goes to its slot or is dropped (41_dispatch.md R148). -/
def udpDeliver (s : State) : Run :=
  match findUdp s with
  | some u => udpFinalise u (pbe .udpIn u s)
  | none => dropFrame s

/-- `UDP_IN` (41_dispatch.md R131). -/
def udpIn (s : State) : Run :=
  match udpDrop s with
  | some _ => dropFrame s
  | none => udpDeliver (s.setAppdata (BitVec.ofNat 16 (s.cfg.llHdrLen + 28)))

/-- Step 7: demultiplexing by the protocol byte (41_dispatch.md R139). -/
def demux (s : State) : Run :=
  if headerByte s 9 = protoTcp then tcpIn s
  else if headerByte s 9 = protoUdp ∧ s.cfg.udpEn = true then udpIn s
  else dropFrame s

/-- Steps 1 to 15, after step 0 (41_dispatch.md R131). -/
def inbound (s : State) : Run :=
  match ipDrop s with
  | some _ => dropFrame s
  | none => demux s

/-- `EV_DATA` (41_dispatch.md R131). -/
def execEvData (s : State) : Host.Outcome State Fault Refusal :=
  (if bufSize s.cfg < s.length.toNat then raise .range s else inbound (s.setSndlen 0)).outcome

/-! ### EV_TIMER -/

/-- The poll of scan index `k`: TCP slots first, then UDP slots (10_state.md R37, 41_dispatch.md R160). -/
def pollIndex (k : Nat) (s : State) : Run :=
  if k < s.cfg.nTcp then tcpPoll k s else udpPoll (k - s.cfg.nTcp) s

/-- The loop of 41_dispatch.md R160, at most the given number of rounds. -/
def timerLoop : Nat → State → Run
  | 0, s => .on s
  | n + 1, s =>
    if s.scan.toNat < totalSlots s.cfg then
      (pollIndex s.scan.toNat (s.setScan (s.scan + 1))).andThen
        (fun t => if t.length = 0 then timerLoop n t else .on t)
    else .on s

/-- `if scan_idx = N_TOT: scan_idx <- 0` (41_dispatch.md R160). -/
def scanWrap (s : State) : Run := .on (if s.scan.toNat = totalSlots s.cfg then s.setScan 0 else s)

/-- `EV_TIMER` (41_dispatch.md R160). Each round moves the cursor up by one, so `N_TOT` rounds are the whole loop (log 18). -/
def execEvTimer (s : State) : Host.Outcome State Fault Refusal :=
  ((timerLoop (totalSlots s.cfg) (s.setLength 0)).andThen scanWrap).outcome

/-! ### The slot commands -/

/-- `EV_POLL`: pending-send service of one TCP slot, no tick (41_dispatch.md R162, R163). -/
def pendingSend (k : Nat) (s : State) : Run :=
  if s.cfg.nTcp ≤ k then raise .slotRange s
  else if (s.tcpSlot k).active then tcpRequest .pollSend k ((s.setLength 0).setSndlen 0)
  else .on (s.setLength 0)

/-- `EV_UDPSEND`: a datagram around the payload in place; no request (41_dispatch.md R164, R165). -/
def udpSend (k : Nat) (s : State) : Run :=
  if s.cfg.nUdp ≤ k then raise .slotRange s
  else if (s.udpSlot k).active then udpFinalise k s
  else .on (s.setLength 0)

/-- `EV_POLL` (41_dispatch.md R162). -/
def execEvPoll (slot : Byte) (s : State) : Host.Outcome State Fault Refusal := (pendingSend slot.toNat s).outcome

/-- `EV_UDPSEND` (41_dispatch.md R164). -/
def execEvUdpsend (slot : Byte) (s : State) : Host.Outcome State Fault Refusal := (udpSend slot.toNat s).outcome

/-- `EV_UDPTIMER`: "exactly that of `UDP_POLL` with the same slot" (41_dispatch.md R166). -/
def execEvUdptimer (slot : Byte) (s : State) : Host.Outcome State Fault Refusal := (udpPoll slot.toNat s).outcome

end Sys2Proof.Machine
end

