-- ==== Sys2Proof/Syntax.lean ====
section
/-! DEFINITION. The twelve commands of 30_encoding.md R82, one constructor per row of spec/opcode_table.json. -/

namespace Sys2Proof

/-- A command. `slot` is the field `SLOT`, "an unsigned 8-bit number used as is" (30_encoding.md R81). -/
inductive Instr where
  /-- `ACC32` (40_checksum.md R105). -/
  | acc32
  /-- `ICSUM` (40_checksum.md R107). -/
  | icsum
  /-- `IPCSUM` (40_checksum.md R110). -/
  | ipcsum
  /-- `TCPCSUM` (40_checksum.md R114). -/
  | tcpcsum
  /-- `UDPCSUM` (40_checksum.md R115). -/
  | udpcsum
  /-- `EV_DATA` (41_dispatch.md R131). -/
  | evData
  /-- `EV_TIMER` (41_dispatch.md R160). -/
  | evTimer
  /-- `EV_POLL` (41_dispatch.md R162). -/
  | evPoll (slot : Byte)
  /-- `EV_UDPSEND` (41_dispatch.md R164). -/
  | evUdpsend (slot : Byte)
  /-- `EV_UDPTIMER` (41_dispatch.md R166). -/
  | evUdptimer (slot : Byte)
  /-- `TCP_POLL` (42_polling.md R181). -/
  | tcpPoll (slot : Byte)
  /-- `UDP_POLL` (42_polling.md R195). -/
  | udpPoll (slot : Byte)
  deriving DecidableEq, Repr

end Sys2Proof
end

