-- ==== Sys2Proof/Machine/Dispatch.lean ====
section
/-! DEFINITION. One command, from the state its `CMD` write finds to the state it ends in: one arm per constructor. -/

namespace Sys2Proof.Machine

def exec (i : Instr) (s : State) : Host.Outcome State Fault Refusal :=
  match i with
  | .acc32 => Sys2Proof.Machine.execAcc32 s
  | .icsum => Sys2Proof.Machine.execIcsum s
  | .ipcsum => Sys2Proof.Machine.execIpcsum s
  | .tcpcsum => Sys2Proof.Machine.execTcpcsum s
  | .udpcsum => Sys2Proof.Machine.execUdpcsum s
  | .evData => Sys2Proof.Machine.execEvData s
  | .evTimer => Sys2Proof.Machine.execEvTimer s
  | .evPoll slot => Sys2Proof.Machine.execEvPoll slot s
  | .evUdpsend slot => Sys2Proof.Machine.execEvUdpsend slot s
  | .evUdptimer slot => Sys2Proof.Machine.execEvUdptimer slot s
  | .tcpPoll slot => Sys2Proof.Machine.execTcpPoll slot s
  | .udpPoll slot => Sys2Proof.Machine.execUdpPoll slot s

end Sys2Proof.Machine
end

