-- ==== Sys2Proof/WellFormed.lean ====
section
/-! DEFINITION. Which commands a block built with a given `UDP_EN` has (30_encoding.md R85 step 3). The range of a slot
is no part of it: "The range check of `SLOT` against the table size is not part of decoding" (R85). -/

namespace Sys2Proof

/-- "present only when UDP support is compiled in": `EV_UDPSEND`, `EV_UDPTIMER` and `UDP_POLL` need `UDP_EN`
(30_encoding.md R85 step 3); `UDPCSUM` does not (40_checksum.md R115). -/
def Instr.wf (udpEn : Bool) : Instr → Bool
  | .acc32 => true
  | .icsum => true
  | .ipcsum => true
  | .tcpcsum => true
  | .udpcsum => true
  | .evData => true
  | .evTimer => true
  | .evPoll _ => true
  | .evUdpsend _ => udpEn
  | .evUdptimer _ => udpEn
  | .tcpPoll _ => true
  | .udpPoll _ => udpEn

end Sys2Proof
end

