-- ==== Sys2Proof/Decode.lean ====
section
/-! DEFINITION. Decoding a command word, total, in the step order of 30_encoding.md R85, and the encoder of R80 and R81. -/

namespace Sys2Proof

/-- Why a command word is illegal, in the order 30_encoding.md R85 tests (60_exceptions.md R250). All give
`ILLEGAL_CMD`; the machine keeps no record of which. -/
inductive DecodeError where
  /-- Step 1: `w[31:16] != 0`. -/
  | reservedBits
  /-- Step 2: `w[7:0]` is not one of the twelve values. -/
  | unknownOpc
  /-- Step 3: a UDP entry point of a block without UDP support. -/
  | udpAbsent
  /-- Step 4: a nonzero `SLOT` on a command that takes none. -/
  | slotOnSlotless
  deriving DecidableEq, Repr

/-- The field `RSV` (30_encoding.md R80). -/
def rsvField (w : Word) : Half := w.extractLsb' 16 16

/-- The field `SLOT` (30_encoding.md R80). -/
def slotField (w : Word) : Byte := w.extractLsb' 8 8

/-- `OPC = UNIT * 16 + FUNC = w[7:0]` (30_encoding.md R81). -/
def opcField (w : Word) : Byte := w.extractLsb' 0 8

/-- A command without a slot: `SLOT` must be 0 (30_encoding.md R85 step 4). -/
def slotless (w : Word) (i : Instr) : Except DecodeError Instr :=
  if slotField w = 0 then .ok i else .error .slotOnSlotless

/-- A command of the UDP entry points: legal only with `UDP_EN` (30_encoding.md R85 step 3). -/
def udpOnly (udpEn : Bool) (i : Instr) : Except DecodeError Instr :=
  if udpEn then .ok i else .error .udpAbsent

/-- Decoding (30_encoding.md R82, R85). -/
def decode (udpEn : Bool) (w : Word) : Except DecodeError Instr :=
  if rsvField w ≠ 0 then .error .reservedBits
  else match (opcField w).toNat with
    | 0x00 => slotless w .acc32
    | 0x01 => slotless w .icsum
    | 0x02 => slotless w .ipcsum
    | 0x03 => slotless w .tcpcsum
    | 0x04 => slotless w .udpcsum
    | 0x10 => slotless w .evData
    | 0x11 => slotless w .evTimer
    | 0x12 => .ok (.evPoll (slotField w))
    | 0x13 => udpOnly udpEn (.evUdpsend (slotField w))
    | 0x14 => udpOnly udpEn (.evUdptimer (slotField w))
    | 0x20 => .ok (.tcpPoll (slotField w))
    | 0x21 => udpOnly udpEn (.udpPoll (slotField w))
    | _ => .error .unknownOpc

/-- The word with `RSV` 0 and the given `SLOT` and `OPC` (30_encoding.md R80). -/
def formatC (slot opc : Byte) : Word := (0 : Half) ++ (slot ++ opc)

/-- The encoding of each command (30_encoding.md R80 to R82). -/
def encode : Instr → Word
  | .acc32 => formatC 0 0x00
  | .icsum => formatC 0 0x01
  | .ipcsum => formatC 0 0x02
  | .tcpcsum => formatC 0 0x03
  | .udpcsum => formatC 0 0x04
  | .evData => formatC 0 0x10
  | .evTimer => formatC 0 0x11
  | .evPoll slot => formatC slot 0x12
  | .evUdpsend slot => formatC slot 0x13
  | .evUdptimer slot => formatC slot 0x14
  | .tcpPoll slot => formatC slot 0x20
  | .udpPoll slot => formatC slot 0x21

/-- The command this decoder reads from the bits of an opcode-table row. A command is one 32-bit word (30_encoding.md
R80, R87): fewer bits are the low bits of a word whose others are 0, and there is no longer command. The table has the UDP rows,
so the block is one with UDP support, as the reference configuration is (log 12). -/
def decodeTableWord (nbits w : Nat) : Option Instr :=
  if nbits ≤ 32 && decide (w < 2 ^ nbits) then
    match decode Config.reference.udpEn (BitVec.ofNat 32 w) with
    | .ok i => some i
    | .error _ => none
  else none

end Sys2Proof
end

