-- ==== Sys2Proof/Machine/Reentry.lean ====
section
/-! DEFINITION. `REENTRY` (60_exceptions.md R249): what an abandoned command leaves. -/

namespace Sys2Proof.Machine

/-- A slot table after a re-entry: every slot free. -/
def freeTable {α : Type} (free : Nat → α) (n : Nat) : List α := (List.range n).map free

/-- The state the command would have ended in. -/
def completed (i : Instr) (s : State) : State :=
  match exec i s with
  | .next t => t
  | .fault _ => s
  | .refused _ => s

/-- How many requests the command makes when it runs to its end. -/
def requestCount (i : Instr) (s : State) : Nat := (completed i s).requests.length - s.requests.length

/-- The answers to the given number of requests, as far as `snd` shows them; the last one is cut short after `cut` bytes. -/
def answersTaken : Nat → Nat → State → State
  | 0, _, s => s
  | n + 1, cut, s =>
    answersTaken n cut (pbeSndWrites
      (if n = 0 then (nextAnswer s).1.sndWrites.take cut else (nextAnswer s).1.sndWrites) (nextAnswer s).2)

/-- How many of its requests the command had made when it was abandoned: a free number of all (log 10). -/
def requestsMade (i : Instr) (s : State) : Nat := min (Config.freeRequestCount s.draws) (requestCount i s)

/-- The abandoned command's requests answered (log 10): what is left of the answers, and `snd`, which the back-end alone writes. -/
def abandoned (i : Instr) (s : State) : State := answersTaken (requestsMade i s) (Config.freeWriteCount s.draws) s

/-- `REENTRY` while `i` executes, started in `s` (60_exceptions.md R249): the second word is discarded, the command is "abandoned at an
unspecified point of its pseudocode", `STATUS` says so, and `buf`, every other register and both tables are unspecified: free
values. `snd` and the request log are not in that list: they are as the command had left them when it was abandoned (log 10). -/
def reentryState (i : Instr) (s : State) : State :=
  let u := abandoned i s
  { cfg := s.cfg
    buf := []
    length := (Config.freeReg u.draws 0x08).setWidth 16
    appdata := (Config.freeReg u.draws 0x0C).setWidth 16
    sndptr := Config.freeReg u.draws 0x10
    sndlen := (Config.freeReg u.draws 0x14).setWidth 16
    snd := u.snd
    tcp := freeTable (Config.freeTcpSlot u.draws) s.tcp.length
    udp := freeTable (Config.freeUdpSlot u.draws) s.udp.length
    csbase := (Config.freeReg u.draws 0x18).setWidth 16
    cslen := (Config.freeReg u.draws 0x1C).setWidth 16
    csres := (Config.freeReg u.draws 0x20).setWidth 16
    acc32 := Config.freeReg u.draws 0x24
    op16 := (Config.freeReg u.draws 0x28).setWidth 16
    scan := (Config.freeReg u.draws 0x2C).setWidth 10
    ipid := (Config.freeReg u.draws 0x30).setWidth 16
    faultBit := true
    fcode := faultCode .reentry
    script := s.script
    rdata := s.rdata
    answers := u.answers
    requests := (completed i s).requests.drop (requestCount i s - requestsMade i s)
    draws := u.draws + 1
    bufDraw := u.draws
    sndDraw := s.sndDraw }

end Sys2Proof.Machine
end

