-- ==== Sys2Proof/Machine/Window.lean ====
section
/-! DEFINITION. The host's side: the address window (10_state.md R42 to R44, R47, 20_memory.md R54), the gate in front of `CMD`
(60_exceptions.md R248), and taking the host's next action. -/

namespace Sys2Proof.Machine

/-! ### The window (10_state.md R42) -/

/-- The window offset of `CMD`. -/
def cmdOffset : BitVec 17 := 0x10000

/-- A register as the host reads it; `CMD` reads 0 and unlisted offsets are reserved (10_state.md R42). The argument is the offset
within REG. -/
def readReg (s : State) (off : Nat) : Word :=
  match off with
  | 0x04 => statusWord s
  | 0x08 => s.length.setWidth 32
  | 0x0C => s.appdata.setWidth 32
  | 0x10 => s.sndptr
  | 0x14 => s.sndlen.setWidth 32
  | 0x18 => s.csbase.setWidth 32
  | 0x1C => s.cslen.setWidth 32
  | 0x20 => s.csres.setWidth 32
  | 0x24 => s.acc32
  | 0x28 => s.op16.setWidth 32
  | 0x2C => s.scan.setWidth 32
  | 0x30 => s.ipid.setWidth 32
  | _ => 0

/-- A host write to a register other than `CMD`: read-only registers, reserved bits and reserved offsets ignore it
(10_state.md R42, R44). -/
def writeReg (s : State) (off : Nat) (v : Word) : State :=
  match off with
  | 0x08 => s.setLength (v.setWidth 16)
  | 0x0C => s.setAppdata (v.setWidth 16)
  | 0x10 => s.setSndptr v
  | 0x14 => s.setSndlen (v.setWidth 16)
  | 0x18 => s.setCsbase (v.setWidth 16)
  | 0x1C => s.setCslen (v.setWidth 16)
  | 0x24 => s.setAcc32 v
  | 0x28 => s.setOp16 (v.setWidth 16)
  | 0x30 => s.setIpid (v.setWidth 16)
  | _ => s

/-- Word `n` of a TCP slot (10_state.md R43). -/
def tcpWord (t : TcpSlot) (n : Nat) : Word :=
  match n with
  | 0 => t.laddr
  | 1 => t.raddr
  | 2 => t.lport ++ t.rport
  | 3 => (0 : Byte) ++ (t.kaCount ++ (t.rtxCount ++ (t.tag ++ ((0 : BitVec 3) ++ BitVec.ofBool t.active))))
  | 4 => t.kaTimer ++ t.rtxTimer
  | _ => 0

/-- A TCP slot after a host write of word `n` (10_state.md R43, R44). -/
def tcpWriteWord (t : TcpSlot) (n : Nat) (v : Word) : TcpSlot :=
  match n with
  | 0 => { t with laddr := v }
  | 1 => { t with raddr := v }
  | 2 => { t with lport := v.extractLsb' 16 16, rport := v.extractLsb' 0 16 }
  | 3 => { t with active := v.getLsbD 0, tag := v.extractLsb' 4 4, rtxCount := v.extractLsb' 8 8,
                  kaCount := v.extractLsb' 16 8 }
  | 4 => { t with rtxTimer := v.extractLsb' 0 16, kaTimer := v.extractLsb' 16 16 }
  | _ => t

/-- Word `n` of a UDP slot: words 0 to 2 and bit 0 of word 3 (10_state.md R43). -/
def udpWord (u : UdpSlot) (n : Nat) : Word :=
  match n with
  | 0 => u.laddr
  | 1 => u.raddr
  | 2 => u.lport ++ u.rport
  | 3 => (0 : BitVec 31) ++ BitVec.ofBool u.active
  | _ => 0

/-- A UDP slot after a host write of word `n` (10_state.md R43, R44). -/
def udpWriteWord (u : UdpSlot) (n : Nat) (v : Word) : UdpSlot :=
  match n with
  | 0 => { u with laddr := v }
  | 1 => { u with raddr := v }
  | 2 => { u with lport := v.extractLsb' 16 16, rport := v.extractLsb' 0 16 }
  | 3 => { u with active := v.getLsbD 0 }
  | _ => u

/-- What a window offset names (10_state.md R42). -/
inductive Place where
  /-- A byte of `buf`, in range. -/
  | buf (a : Nat)
  /-- A register, by its offset in REG. -/
  | reg (off : Nat)
  /-- Word `n` of TCP slot `k`, in range. -/
  | tcp (k n : Nat)
  /-- Word `n` of UDP slot `k`, in range and present. -/
  | udp (k n : Nat)
  /-- "Addresses not listed are reserved". -/
  | reserved
  deriving DecidableEq, Repr

/-- The window map for a byte offset (10_state.md R42). For REG and CT it names the word at an aligned offset. -/
def placeOf (c : Config) (off : Nat) : Place :=
  if off < 0x10000 then (if off < bufSize c then .buf off else .reserved)
  else if off < 0x10100 then .reg (off - 0x10000)
  else if off < 0x11000 then .reserved
  else if off < 0x13000 then
    (if (off - 0x11000) / 32 < c.nTcp then .tcp ((off - 0x11000) / 32) ((off - 0x11000) % 32 / 4) else .reserved)
  else if off < 0x15000 then
    (if c.udpEn = true ∧ (off - 0x13000) / 32 < c.nUdp then
      .udp ((off - 0x13000) / 32) ((off - 0x13000) % 32 / 4)
     else .reserved)
  else .reserved

/-- REG and CT take only words at multiples of 4 (20_memory.md R54). An access is to the space its first byte is in (log 24). -/
def wordAccess (width : Width) (off : BitVec 17) : Bool := decide (width = .word) && decide (off.toNat % 4 = 0)

/-- A host read: BUF by bytes, REG and CT by aligned words, 0 elsewhere (10_state.md R42, 20_memory.md R54). The data goes to
`rdata` (log 7); a wide access to BUF does not exist (20_memory.md R53; log 8). -/
def hostRead (width : Width) (off : BitVec 17) (s : State) : Host.Outcome State Fault Refusal :=
  match placeOf s.cfg off.toNat with
  | .buf a => if width = .byte then .next (s.setRdata ((s.bufByte a).setWidth 32)) else .refused .bufWide
  | .reg r => .next (s.setRdata (if wordAccess width off then readReg s r else 0))
  | .tcp k n => .next (s.setRdata (if wordAccess width off then tcpWord (s.tcpSlot k) n else 0))
  | .udp k n => .next (s.setRdata (if wordAccess width off then udpWord (s.udpSlot k) n else 0))
  | .reserved => .next (s.setRdata 0)

/-- A host write to storage, `CMD` excepted (10_state.md R42, R44, 20_memory.md R54). A faulted block takes it too
(60_exceptions.md R248). -/
def hostWrite (width : Width) (off : BitVec 17) (v : Word) (s : State) : Host.Outcome State Fault Refusal :=
  match placeOf s.cfg off.toNat with
  | .buf a => if width = .byte then .next (s.storeBuf a (v.setWidth 8)) else .refused .bufWide
  | .reg r => .next (if wordAccess width off then writeReg s r v else s)
  | .tcp k n => .next (if wordAccess width off then s.setTcp k (tcpWriteWord (s.tcpSlot k) n v) else s)
  | .udp k n => .next (if wordAccess width off then s.setUdp k (udpWriteWord (s.udpSlot k) n v) else s)
  | .reserved => .next s

/-- The host writes a byte of its send-data region (10_state.md R25); an address outside it does not exist (20_memory.md R50;
log 9). -/
def hostSndWrite (addr : Word) (v : Byte) (s : State) : Host.Outcome State Fault Refusal :=
  if addr.toNat < s.cfg.sndSize then .next (s.storeSnd addr.toNat v) else .fault .sndAddress

/-- The host reads a byte of its send-data region (70_reset_and_hazards.md R284); the data goes to `rdata` (log 7). -/
def hostSndRead (addr : Word) (s : State) : Host.Outcome State Fault Refusal :=
  if addr.toNat < s.cfg.sndSize then .next (s.setRdata ((s.sndByte addr.toNat).setWidth 32)) else .fault .sndAddress

/-! ### Commands -/

/-- What the host's next action comes to. -/
inductive Move where
  /-- No action: "the block is idle and waits for a `CMD` write" (70_reset_and_hazards.md R271). -/
  | idle
  /-- A legal command, and the state it starts in. -/
  | run (i : Instr) (s : State)
  /-- An action that ends without a command. -/
  | done (o : Host.Outcome State Fault Refusal)

/-- A word written to `CMD`: ignored while faulted (10_state.md R47, 60_exceptions.md R248), `ILLEGAL_CMD` when it decodes to
nothing (30_encoding.md R86), else a command to run. -/
def writeCmd (w : Word) (s : State) : Move :=
  if s.faultBit then .done (.next s)
  else match decode s.cfg.udpEn w with
    | .ok i => .run i s
    | .error _ => .done (raise .illegalCmd s).outcome

/-- Two overlapping `CMD` writes (60_exceptions.md R249; log 10): if the first starts a command, the second finds it executing;
else nothing is executing and the second is a write like any other. -/
def writeCmdTwice (first second : Word) (s : State) : Move :=
  if s.faultBit then .done (.next s)
  else match decode s.cfg.udpEn first with
    | .ok i => .done (.next (reentryState i s))
    | .error _ => writeCmd second (raise .illegalCmd s).state

/-- One host action. -/
def hostAct (op : HostOp) (s : State) : Move :=
  match op with
  | .write width off v =>
    if off = cmdOffset ∧ width = .word then writeCmd v s else .done (hostWrite width off v s)
  | .read width off => .done (hostRead width off s)
  | .sndWrite addr v => .done (hostSndWrite addr v s)
  | .sndRead addr => .done (hostSndRead addr s)
  | .overlap first second => writeCmdTwice first second s
  | .reset => .done (.next (resetBlock s))

/-- Take the host's next action: this machine's fetch (log 6). -/
def hostMove (s : State) : Move :=
  match s.script with
  | [] => .idle
  | op :: rest => hostAct op (s.setScript rest)

end Sys2Proof.Machine
end

