-- ==== Sys2Proof/Machine/Step.lean ====
section
/-! DEFINITION. One step: one action of the host (70_reset_and_hazards.md R284), a command word written to `CMD` being run to its
end (10_state.md R47). -/

namespace Sys2Proof.Machine

/-- One step of the machine. With nothing for the host to do the block is idle and holds its state (60_exceptions.md R260). -/
def step (s : State) : Host.Outcome State Fault Refusal :=
  match hostMove s with
  | .idle => .next s
  | .run i t => exec i t
  | .done o => o

/-- `s` with the command word of these bits as the host's next action, a word write to `CMD` (log 6, log 12). -/
def State.withFetchWord (s : State) (nbits w : Nat) : State :=
  s.setScript (.write .word cmdOffset (BitVec.ofNat 32 (w % 2 ^ nbits)) :: s.script)

end Sys2Proof.Machine
end

