-- ==== Sys2Proof/Safety.lean ====
section
/-! DEFINITION. What counts as a safe run, and the invariant that every step keeps. -/

namespace Sys2Proof.Machine

/-- "A model treats a faulted state as never final: a run that faults has failed" (60_exceptions.md R248). -/
def State.safe (s : State) : Bool := !s.faultBit

/-- Both regions hold bytes in canonical form and inside their space (20_memory.md R50, R67). -/
abbrev State.memOk (s : State) : Prop :=
  Memory.wf s.buf ∧ (∀ c ∈ s.buf, c.1 < bufSize s.cfg) ∧ Memory.wf s.snd ∧ ∀ c ∈ s.snd, c.1 < s.cfg.sndSize

/-- `FCODE` "is 0 while `FAULT` is 0" (10_state.md R39), and codes "6 to 255" are "never written" (60_exceptions.md R246). -/
abbrev State.statusOk (s : State) : Prop :=
  (s.faultBit = false → s.fcode = 0) ∧ (s.faultBit = true → 1 ≤ s.fcode.toNat ∧ s.fcode.toNat ≤ 5)

/-- `scan_idx` is "in the range 0 to `N_TOT - 1` between commands" (10_state.md R37); a fault inside `EV_TIMER` may leave `N_TOT`
(log 15). -/
abbrev State.scanOk (s : State) : Prop := s.faultBit = false → s.scan.toNat < totalSlots s.cfg

/-- The invariant: legal parameters, tables of their fixed size (10_state.md R26), canonical memory, a legal `STATUS`, a
legal cursor. -/
structure State.Inv (s : State) : Prop where
  cfg : s.cfg.ok = true
  tcp : s.tcp.length = s.cfg.nTcp
  udp : s.udp.length = s.cfg.nUdp
  mem : s.memOk
  status : s.statusOk
  scan : s.scanOk

end Sys2Proof.Machine
end

