-- ==== Sys2Proof/Certificates/Slice0/Obligations.lean ====
section
/-! DEFINITION. The statements for the provers, one `def Obligations.<Name> : Prop` each, and the words they are said in
(namespace Sys2Proof.Claims). Each docstring names the rule of spec/ a statement formalises. -/

namespace Sys2Proof.Claims

open Sys2Proof.Machine

/-! ### Words the statements are said in -/

/-- `L` (00_scope.md R15). -/
abbrev hdr (s : State) : Nat := s.cfg.llHdrLen

/-- A state that differs from `s` in `STATUS` only: a contract fault with this code (60_exceptions.md R247). -/
def faulted (s : State) (code : Byte) : State := { s with faultBit := true, fcode := code }

/-- `s` with `op` as the host's next action. -/
def doing (op : HostOp) (s : State) : State := { s with script := op :: s.script }

/-- A 32-bit host write to `CMD` (10_state.md R47). -/
def cmdWrite (w : Word) : HostOp := .write .word 0x10000 w

/-- A 32-bit host write at an offset of REG (10_state.md R42). -/
def regWrite (off : BitVec 17) (v : Word) : HostOp := .write .word (0x10000 + off) v

/-- A 32-bit host read at an offset of REG (10_state.md R42). -/
def regRead (off : BitVec 17) : HostOp := .read .word (0x10000 + off)

/-- A host read of this offset of REG gives this number and changes nothing but the data of the read (10_state.md R42; log 7). -/
def readsAs (s : State) (off : BitVec 17) (n : Nat) : Prop :=
  step (doing (regRead off) s) = .next { s with rdata := BitVec.ofNat 32 n }

/-- An access that no byte of BUF, register or slot word answers (10_state.md R42 to R44, 20_memory.md R54): a reserved offset, a word or
slot outside its table, or an access to REG or CT that is not an aligned word. -/
def namesNothing (s : State) (width : Width) (off : BitVec 17) : Prop :=
  (bufSize s.cfg ≤ off.toNat ∧ off.toNat < 0x10000) ∨
  (0x10000 ≤ off.toNat ∧ (width ≠ .word ∨ off.toNat % 4 ≠ 0)) ∨
  (0x10034 ≤ off.toNat ∧ off.toNat < 0x11000) ∨
  (0x11000 + 32 * s.cfg.nTcp ≤ off.toNat ∧ off.toNat < 0x13000) ∨
  (0x13000 ≤ off.toNat ∧ s.cfg.udpEn = false) ∨ 0x13000 + 32 * s.cfg.nUdp ≤ off.toNat ∨ 0x15000 ≤ off.toNat ∨
  (0x11000 ≤ off.toNat ∧ 20 ≤ off.toNat % 32) ∨ (0x13000 ≤ off.toNat ∧ 16 ≤ off.toNat % 32)

/-- The number word `n` of a TCP slot reads as (10_state.md R43). -/
def tcpSlotReads (t : TcpSlot) (n : Nat) : Nat :=
  if n = 0 then t.laddr.toNat
  else if n = 1 then t.raddr.toNat
  else if n = 2 then t.lport.toNat * 65536 + t.rport.toNat
  else if n = 3 then (if t.active then 1 else 0) + t.tag.toNat * 16 + t.rtxCount.toNat * 256 + t.kaCount.toNat * 65536
  else if n = 4 then t.rtxTimer.toNat + t.kaTimer.toNat * 65536
  else 0

/-- A TCP slot after the number `v` is written to its word `n`, field by field (10_state.md R43, R44). -/
def tcpSlotStored (t : TcpSlot) (n v : Nat) : TcpSlot :=
  if n = 0 then { t with laddr := BitVec.ofNat 32 v }
  else if n = 1 then { t with raddr := BitVec.ofNat 32 v }
  else if n = 2 then { t with lport := BitVec.ofNat 16 (v / 65536), rport := BitVec.ofNat 16 v }
  else if n = 3 then
    { t with
      active := decide (v % 2 = 1), tag := BitVec.ofNat 4 (v / 16), rtxCount := BitVec.ofNat 8 (v / 256),
      kaCount := BitVec.ofNat 8 (v / 65536) }
  else if n = 4 then { t with rtxTimer := BitVec.ofNat 16 v, kaTimer := BitVec.ofNat 16 (v / 65536) }
  else t

/-- The number word `n` of a UDP slot reads as (10_state.md R43). -/
def udpSlotReads (u : UdpSlot) (n : Nat) : Nat :=
  if n = 0 then u.laddr.toNat
  else if n = 1 then u.raddr.toNat
  else if n = 2 then u.lport.toNat * 65536 + u.rport.toNat
  else if n = 3 then (if u.active then 1 else 0)
  else 0

/-- A UDP slot after the number `v` is written to its word `n`, field by field (10_state.md R43, R44). -/
def udpSlotStored (u : UdpSlot) (n v : Nat) : UdpSlot :=
  if n = 0 then { u with laddr := BitVec.ofNat 32 v }
  else if n = 1 then { u with raddr := BitVec.ofNat 32 v }
  else if n = 2 then { u with lport := BitVec.ofNat 16 (v / 65536), rport := BitVec.ofNat 16 v }
  else if n = 3 then { u with active := decide (v % 2 = 1) }
  else u

/-- The rule of 40_checksum.md R103 (a) for `fold`. -/
def foldClosed (n : Nat) : Nat := if n = 0 then 0 else (n - 1) % 65535 + 1

/-- Every test of steps 1 to 6 of `EV_DATA` passes (41_dispatch.md R133 to R138). -/
def ipGood (s : State) : Prop :=
  hdr s + 20 ≤ s.length.toNat ∧ versionField s = 4 ∧ headerLengthField s = 5 ∧
  20 ≤ totalLength s ∧ hdr s + totalLength s ≤ s.length.toNat ∧
  headerByte s 6 &&& 0x3F = 0 ∧ headerByte s 7 = 0 ∧ ipChecksum s = 0

/-- The checksum of the segment of an inbound frame, which is contiguous in `buf` (40_checksum.md R113 with `SNDLEN` 0). -/
def segmentChecksum (s : State) (proto : Byte) : Half :=
  csum16 (pseudoHeader s proto (totalLength s - 20) ++ bufRange s (hdr s + 20) (totalLength s - 20))

/-- The tests of steps 8 and 9 pass (41_dispatch.md R140, R141). -/
def tcpGood (s : State) : Prop :=
  40 ≤ totalLength s ∧ 20 ≤ tcpHeaderLength s ∧ 20 + tcpHeaderLength s ≤ totalLength s ∧ segmentChecksum s 6 = 0

/-- The tests of steps 13 and 14 pass (41_dispatch.md R146, R147). -/
def udpGood (s : State) : Prop :=
  28 ≤ totalLength s ∧ headerNat s 24 = totalLength s - 20 ∧ (headerNat s 26 = 0 ∨ segmentChecksum s 17 = 0)

/-- The datagram goes to TCP handling (41_dispatch.md R139). -/
def isTcp (s : State) : Prop := headerByte s 9 = 6

/-- The datagram goes to UDP handling (41_dispatch.md R139). -/
def isUdp (s : State) : Prop := headerByte s 9 = 17 ∧ s.cfg.udpEn = true

/-- The packet's identity is these four values: destination to the local side, source to the remote (41_dispatch.md R143). -/
def identity (s : State) (laddr raddr : Word) (lport rport : Half) : Prop :=
  laddr = headerWord s 16 ∧ raddr = headerWord s 12 ∧ lport = headerHalf s 22 ∧ rport = headerHalf s 20

/-- TCP slot `k` is active and has the packet's identity (41_dispatch.md R143). -/
def tcpHit (s : State) (k : Nat) : Prop :=
  (s.tcpSlot k).active = true ∧
    identity s (s.tcpSlot k).laddr (s.tcpSlot k).raddr (s.tcpSlot k).lport (s.tcpSlot k).rport

/-- UDP slot `k` is active and has the packet's identity (41_dispatch.md R148). -/
def udpHit (s : State) (k : Nat) : Prop :=
  (s.udpSlot k).active = true ∧
    identity s (s.udpSlot k).laddr (s.udpSlot k).raddr (s.udpSlot k).lport (s.udpSlot k).rport

/-- An inbound segment accepted up to step 10: `SNDLEN` cleared, `APPDATA` at the first payload byte (41_dispatch.md R131). -/
def acceptedTcp (s : State) : State :=
  { s with sndlen := 0, appdata := BitVec.ofNat 16 (hdr s + 20 + tcpHeaderLength s) }

/-- An inbound datagram accepted up to step 14 (41_dispatch.md R147). -/
def acceptedUdp (s : State) : State := { s with sndlen := 0, appdata := BitVec.ofNat 16 (hdr s + 28) }

/-- An accepted inbound segment (41_dispatch.md R131 steps 0 to 9). -/
def inboundTcp (s : State) : Prop := s.length.toNat ≤ bufSize s.cfg ∧ ipGood s ∧ isTcp s ∧ tcpGood s

/-- An accepted inbound datagram (41_dispatch.md R131 steps 0 to 7, 13 and 14). -/
def inboundUdp (s : State) : Prop := s.length.toNat ≤ bufSize s.cfg ∧ ipGood s ∧ ¬ isTcp s ∧ isUdp s ∧ udpGood s

/-- After a request of a TCP kind there is no packet, or one that meets the preconditions (41_dispatch.md R153). -/
def tcpAnswered (s : State) : Prop :=
  s.length = 0 ∨
  (viewOk s = true ∧ hdr s + 40 ≤ s.length.toNat ∧ hdr s + totalLength s = s.length.toNat ∧
    (s.sndlen ≠ 0 → hdr s + 40 ≤ s.appdata.toNat))

/-- `TCP_FINALISE` when it does not raise, written out (41_dispatch.md R152): nothing without a packet; else both checksum fields to 0,
the TCP checksum stored, then the IP checksum. -/
def tcpFinished (s : State) : State :=
  if s.length = 0 then s
  else
    let z := (s.storeBytes (hdr s + 10) [0, 0]).storeBytes (hdr s + 36) [0, 0]
    let y := z.storeBytes (hdr s + 36) (bytes16 (csum16 (upperBytes z 6)))
    y.storeBytes (hdr s + 10) (bytes16 (ipChecksum y))

/-- How many payload bytes a datagram has (41_dispatch.md R154). -/
def payload (s : State) : Nat :=
  if s.sndlen ≠ 0 then s.sndlen.toNat else s.length.toNat - (hdr s + 28)

/-- The two range checks of 41_dispatch.md R155. -/
def payloadFits (s : State) : Prop :=
  hdr s + 28 + payload s ≤ bufSize s.cfg ∧ (s.sndlen ≠ 0 → s.sndptr.toNat + s.sndlen.toNat ≤ s.cfg.sndSize)

/-- The header bytes of 41_dispatch.md R156, offset by offset. -/
def udpHeaderBytes (s : State) (e : UdpSlot) : List Byte :=
  let tot : Half := BitVec.ofNat 16 (28 + payload s)
  let len : Half := BitVec.ofNat 16 (8 + payload s)
  let id : Half := s.ipid + 1
  [0x45, 0x00, hi8 tot, lo8 tot, hi8 id, lo8 id, 0x00, 0x00, s.cfg.ipTtl, 17, 0x00, 0x00,
   e.laddr.extractLsb' 24 8, e.laddr.extractLsb' 16 8, e.laddr.extractLsb' 8 8, e.laddr.extractLsb' 0 8,
   e.raddr.extractLsb' 24 8, e.raddr.extractLsb' 16 8, e.raddr.extractLsb' 8 8, e.raddr.extractLsb' 0 8,
   hi8 e.lport, lo8 e.lport, hi8 e.rport, lo8 e.rport, hi8 len, lo8 len, 0x00, 0x00]

/-- `UDP_FINALISE` when it does not raise, written out (41_dispatch.md R154, R156, R157): nothing to send without a payload; else
the headers, `IPID`, `APPDATA` and `LENGTH`, the UDP checksum stored (0 as 0xFFFF when `UDP_ZERO_AS_FFFF`), then the IP checksum. -/
def udpFinished (u : Nat) (s : State) : State :=
  if payload s = 0 then { s with length := 0 }
  else
    let b : State := { s.storeBytes (hdr s) (udpHeaderBytes s (s.udpSlot u)) with
      ipid := s.ipid + 1
      appdata := BitVec.ofNat 16 (hdr s + 28)
      length := BitVec.ofNat 16 (hdr s + 28 + payload s) }
    let c := csum16 (upperBytes b 17)
    let y := b.storeBytes (hdr s + 26) (bytes16 (if c = 0 ∧ s.cfg.udpZeroAsFfff = true then 0xFFFF else c))
    y.storeBytes (hdr s + 10) (bytes16 (ipChecksum y))

/-- A poll-time request starts with an empty buffer and no split (42_polling.md R183). -/
def emptied (s : State) : State := { s with length := 0, sndlen := 0 }

/-- `emptied`, with slot `k` written. -/
def emptiedWith (s : State) (k : Nat) (t : TcpSlot) : State := { emptied s with tcp := s.tcp.set k t }

/-- A timer one tick on (42_polling.md R184). -/
def ticked (t : Half) : Half := if t = 0 then 0 else t - 1

/-- Both timers of a slot one tick on (42_polling.md R184). -/
def aged (t : TcpSlot) : TcpSlot := { t with rtxTimer := ticked t.rtxTimer, kaTimer := ticked t.kaTimer }

/-- The aged slot, with a keepalive expiry of the same poll put off by a tick (42_polling.md R187). -/
def agedHeld (t : TcpSlot) : TcpSlot := if t.kaTimer = 1 then { aged t with kaTimer := 1 } else aged t

/-- What teardown leaves of a slot (42_polling.md R188). -/
def closed (t : TcpSlot) : TcpSlot :=
  { t with active := false, tag := 0, rtxTimer := 0, rtxCount := 0, kaTimer := 0, kaCount := 0 }

/-- A TCP slot in its table and active. -/
def liveTcp (s : State) (k : Nat) : Prop := k < s.cfg.nTcp ∧ (s.tcpSlot k).active = true

/-- A UDP slot in its table and active. -/
def liveUdp (s : State) (k : Nat) : Prop := k < s.cfg.nUdp ∧ (s.udpSlot k).active = true

/-- Slot index `n` of a tick scan is inactive (10_state.md R37). -/
def scanIdle (s : State) (n : Nat) : Prop :=
  if n < s.cfg.nTcp then (s.tcpSlot n).active = false else (s.udpSlot (n - s.cfg.nTcp)).active = false

/-- The cursor after the poll of index `n` ends an `EV_TIMER` (41_dispatch.md R160). -/
def cursorAfter (s : State) (n : Nat) : BitVec 10 :=
  if n + 1 = totalSlots s.cfg then 0 else BitVec.ofNat 10 (n + 1)

/-- The poll command of scan index `n` (41_dispatch.md R160). -/
def pollCommand (s : State) (n : Nat) : Instr :=
  if n < s.cfg.nTcp then .tcpPoll (BitVec.ofNat 8 n) else .udpPoll (BitVec.ofNat 8 (n - s.cfg.nTcp))

/-- The packets sent so far and this command's, if it ended normally with one (60_exceptions.md R261). -/
def sent (t : State) (ps : List (List Byte)) : List (List Byte) :=
  if t.faultBit = false ∧ t.length ≠ 0 then ps ++ [logicalPacket t] else ps

/-- The commands in order, each in the state the one before left, up to a fault; with the packets transmitted in between. -/
def runCommands : List Instr → State → List (List Byte) → State × List (List Byte)
  | [], s, ps => (s, ps)
  | i :: rest, s, ps =>
    if s.faultBit then (s, ps)
    else match exec i s with
      | .next t => runCommands rest t (sent t ps)
      | .fault _ => (s, ps)
      | .refused _ => (s, ps)

/-- The explicit per-slot loop of 42_polling.md R197. -/
def explicitLoop (c : Config) : List Instr :=
  (List.range c.nTcp).map (fun n => .tcpPoll (BitVec.ofNat 8 n)) ++
  (if c.udpEn then (List.range c.nUdp).map (fun n => .udpPoll (BitVec.ofNat 8 n)) else [])

/-- One tick of `EV_TIMER` commands (41_dispatch.md R161), at most `n` of them: until `SCAN` reads 0 or a fault. -/
def timerTick : Nat → State → List (List Byte) → State × List (List Byte)
  | 0, s, ps => (s, ps)
  | n + 1, s, ps =>
    match exec .evTimer s with
    | .next t => if t.faultBit = true ∨ t.scan = 0 then (t, sent t ps) else timerTick n t (sent t ps)
    | .fault _ => (s, ps)
    | .refused _ => (s, ps)

/-- A command of the packet or polling unit (30_encoding.md R80: `UNIT` 1 or 2). -/
def ofPacketUnits (i : Instr) : Prop := 16 ≤ (opcField (encode i)).toNat

/-- Two states whose registers agree and whose bytes agree inside BUF and inside SND. -/
def agreeInBounds (s t : State) : Prop :=
  t = { s with buf := t.buf, snd := t.snd, bufDraw := t.bufDraw, sndDraw := t.sndDraw } ∧
  (∀ a, a < bufSize s.cfg → t.bufByte a = s.bufByte a) ∧ (∀ a, a < s.cfg.sndSize → t.sndByte a = s.sndByte a)

end Sys2Proof.Claims

open Sys2Proof Sys2Proof.Machine Sys2Proof.Claims

/-! ### Encoding and decoding -/

/-- Decode and encode agree (30_encoding.md R80 to R85): every command a block of that build has, with every `SLOT`. -/
def Obligations.DecodeOfEncodeGivesTheCommand : Prop :=
  ∀ (udpEn : Bool) (i : Instr), i.wf udpEn = true → decode udpEn (encode i) = .ok i

/-- Decoding in the order of 30_encoding.md R85: each failing step by its own name, and otherwise the command R82 names. -/
def Obligations.DecodingFollowsTheSteps : Prop :=
  ∀ (udpEn : Bool) (w : Word),
    let plain := [0x00, 0x01, 0x02, 0x03, 0x04, 0x10, 0x11]
    let tcpSlotted := [0x12, 0x20]
    let udpSlotted := [0x13, 0x14, 0x21]
    let opc := w.toNat % 256
    let slot := w.toNat / 256 % 256
    (65536 ≤ w.toNat → decode udpEn w = .error .reservedBits) ∧
    (w.toNat < 65536 → opc ∉ plain ++ tcpSlotted ++ udpSlotted → decode udpEn w = .error .unknownOpc) ∧
    (w.toNat < 65536 → opc ∈ udpSlotted → udpEn = false → decode udpEn w = .error .udpAbsent) ∧
    (w.toNat < 65536 → opc ∈ plain → slot ≠ 0 → decode udpEn w = .error .slotOnSlotless) ∧
    (w.toNat < 65536 → (opc ∈ plain ∧ slot = 0 ∨ opc ∈ tcpSlotted ∨ opc ∈ udpSlotted ∧ udpEn = true) →
      ∃ i, decode udpEn w = .ok i ∧ encode i = w ∧ i.wf udpEn = true)

/-- The worked encodings of 30_encoding.md R92. -/
def Obligations.WorkedEncodingsDecode : Prop :=
  decode true 0x00000320 = .ok (.tcpPoll 3) ∧ encode (.tcpPoll 3) = 0x00000320 ∧
  decode true 0x00000010 = .ok .evData ∧ encode .evData = 0x00000010 ∧
  decode true 0x0000FF21 = .ok (.udpPoll 255) ∧ encode (.udpPoll 255) = 0x0000FF21 ∧
  decode true 0x00010010 = .error .reservedBits ∧ decode true 0x00000310 = .error .slotOnSlotless ∧
  decode true 0x00000005 = .error .unknownOpc

/-! ### The host's actions and the step -/

/-- A step runs the decoded command (10_state.md R47): in a block that is not faulted a word written to `CMD` that decodes to `i` is
`exec i`, in the state with that action taken off the script (log 6). -/
def Obligations.StepRunsTheDecodedCommand : Prop :=
  ∀ (s : State) (w : Word) (i : Instr), s.faultBit = false → decode s.cfg.udpEn w = .ok i →
    step (doing (cmdWrite w) s) = exec i s

/-- An illegal word raises `ILLEGAL_CMD` and executes nothing (30_encoding.md R86). -/
def Obligations.IllegalWordOnlySetsStatus : Prop :=
  ∀ (s : State) (w : Word) (e : DecodeError), s.faultBit = false → decode s.cfg.udpEn w = .error e →
    step (doing (cmdWrite w) s) = .next (faulted s 1)

/-- A faulted block ignores every write to `CMD` (60_exceptions.md R248, 10_state.md R47). -/
def Obligations.FaultedBlockIgnoresCommands : Prop :=
  ∀ (s : State) (w : Word), s.faultBit = true → step (doing (cmdWrite w) s) = .next s

/-- Only reset leaves the faulted state (60_exceptions.md R248): every other action keeps `FAULT`, `FCODE` and the requests made. -/
def Obligations.OnlyResetLeavesTheFault : Prop :=
  ∀ (s t : State) (op : HostOp), s.faultBit = true → op ≠ .reset → step (doing op s) = .next t →
    t.faultBit = true ∧ t.fcode = s.fcode ∧ t.requests = s.requests

/-- Reset (10_state.md R46, 70_reset_and_hazards.md R270): every register and every field of every slot 0, not faulted, `buf` with no
value of its own, `snd` untouched. -/
def Obligations.ResetActionClearsTheBlock : Prop :=
  ∀ s : State, ∃ t, step (doing .reset s) = .next t ∧
    t.length = 0 ∧ t.appdata = 0 ∧ t.sndptr = 0 ∧ t.sndlen = 0 ∧ t.csbase = 0 ∧ t.cslen = 0 ∧ t.csres = 0 ∧
    t.acc32 = 0 ∧ t.op16 = 0 ∧ t.scan = 0 ∧ t.ipid = 0 ∧ t.faultBit = false ∧ t.fcode = 0 ∧
    (∀ k, t.tcpSlot k = ⟨0, 0, 0, 0, false, 0, 0, 0, 0, 0⟩) ∧ t.tcp.length = s.tcp.length ∧
    (∀ k, t.udpSlot k = ⟨0, 0, 0, 0, false⟩) ∧ t.udp.length = s.udp.length ∧
    (∀ a, t.bufByte a = Config.freeBufByte s.draws a) ∧ (∀ a, t.sndByte a = s.sndByte a) ∧ t.cfg = s.cfg

/-- `State.reset` is the state 10_state.md R46 describes. -/
def Obligations.ResetStateIsAllZero : Prop :=
  let t := State.reset
  t.length = 0 ∧ t.appdata = 0 ∧ t.sndptr = 0 ∧ t.sndlen = 0 ∧ t.csbase = 0 ∧ t.cslen = 0 ∧ t.csres = 0 ∧
  t.acc32 = 0 ∧ t.op16 = 0 ∧ t.scan = 0 ∧ t.ipid = 0 ∧ t.faultBit = false ∧ t.fcode = 0 ∧
  (∀ k, t.tcpSlot k = ⟨0, 0, 0, 0, false, 0, 0, 0, 0, 0⟩) ∧ (∀ k, t.udpSlot k = ⟨0, 0, 0, 0, false⟩) ∧
  (∀ a, t.bufByte a = Config.freeBufByte t.bufDraw a)

/-- A second `CMD` write during a command is `REENTRY` (60_exceptions.md R249; the action is log 10's): the fault is taken, and the
second word is discarded. What R249 leaves unspecified is free; the requests made are the first of those the command makes, and one
that makes none, as no checksum command and no `EV_UDPSEND` does, leaves them, the answers and the send-data region as they were. -/
def Obligations.OverlappingCommandIsReentry : Prop :=
  ∀ (s : State) (w second : Word) (i : Instr), s.cfg.ok = true → s.faultBit = false → decode s.cfg.udpEn w = .ok i →
    ∃ t u, step (doing (.overlap w second) s) = .next t ∧ step (doing (.overlap w 0) s) = .next t ∧
      exec i s = .next u ∧ t.faultBit = true ∧ t.fcode = 3 ∧ t.cfg = s.cfg ∧ t.script = s.script ∧
      s.requests <:+ t.requests ∧ t.requests <:+ u.requests ∧ t.answers <:+ s.answers ∧
      t.tcp.length = s.tcp.length ∧ t.udp.length = s.udp.length ∧
      (u.requests = s.requests ∨ ¬ ofPacketUnits i ∨ (∃ slot, i = .evUdpsend slot) →
        t.requests = s.requests ∧ t.answers = s.answers ∧ ∀ a, t.sndByte a = s.sndByte a)

/-- Host writes to the writable registers store the bits of the field and nothing else (10_state.md R42, R44). -/
def Obligations.RegisterWritesStoreTheField : Prop :=
  ∀ (s : State) (v : Word),
    step (doing (regWrite 0x08 v) s) = .next { s with length := v.setWidth 16 } ∧
    step (doing (regWrite 0x0C v) s) = .next { s with appdata := v.setWidth 16 } ∧
    step (doing (regWrite 0x10 v) s) = .next { s with sndptr := v } ∧
    step (doing (regWrite 0x14 v) s) = .next { s with sndlen := v.setWidth 16 } ∧
    step (doing (regWrite 0x18 v) s) = .next { s with csbase := v.setWidth 16 } ∧
    step (doing (regWrite 0x1C v) s) = .next { s with cslen := v.setWidth 16 } ∧
    step (doing (regWrite 0x24 v) s) = .next { s with acc32 := v } ∧
    step (doing (regWrite 0x28 v) s) = .next { s with op16 := v.setWidth 16 } ∧
    step (doing (regWrite 0x30 v) s) = .next { s with ipid := v.setWidth 16 }

/-- Host reads of the registers, `CMD` and the reserved bits reading 0 (10_state.md R42). -/
def Obligations.RegisterReadsGiveTheField : Prop :=
  ∀ s : State,
    readsAs s 0x00 0 ∧ readsAs s 0x04 ((if s.faultBit then 1 else 0) + 256 * s.fcode.toNat) ∧
    readsAs s 0x08 s.length.toNat ∧ readsAs s 0x0C s.appdata.toNat ∧ readsAs s 0x10 s.sndptr.toNat ∧
    readsAs s 0x14 s.sndlen.toNat ∧ readsAs s 0x18 s.csbase.toNat ∧ readsAs s 0x1C s.cslen.toNat ∧
    readsAs s 0x20 s.csres.toNat ∧ readsAs s 0x24 s.acc32.toNat ∧ readsAs s 0x28 s.op16.toNat ∧
    readsAs s 0x2C s.scan.toNat ∧ readsAs s 0x30 s.ipid.toNat

/-- An access that names nothing is ignored on a write and gives 0 on a read; a write to a read-only register is ignored (10_state.md R42,
R44, 20_memory.md R54). -/
def Obligations.OtherAccessesDoNothing : Prop :=
  ∀ (s : State) (width : Width) (off : BitVec 17) (v : Word),
    (namesNothing s width off ∨ off = 0x10004 ∨ off = 0x10020 ∨ off = 0x1002C →
      step (doing (.write width off v) s) = .next s) ∧
    (namesNothing s width off → step (doing (.read width off) s) = .next { s with rdata := 0 })

/-- Words 0 to 7 of an existing TCP slot (10_state.md R43, R44): a read gives the fields at their bits and 0 in the reserved ones; a write
stores the fields of that word and nothing else; it then reads back with its reserved bits 0. -/
def Obligations.TcpSlotWordsHoldTheFields : Prop :=
  ∀ (s : State) (k n : Nat) (v : Word), s.Inv → k < s.cfg.nTcp → n < 8 →
    let off : BitVec 17 := BitVec.ofNat 17 (0x11000 + 32 * k + 4 * n)
    let mask : Word := if n < 3 ∨ n = 4 then 0xFFFFFFFF else if n = 3 then 0x00FFFFF1 else 0
    let t : State := { s with tcp := s.tcp.set k (tcpSlotStored (s.tcpSlot k) n v.toNat) }
    step (doing (.read .word off) s) = .next { s with rdata := BitVec.ofNat 32 (tcpSlotReads (s.tcpSlot k) n) } ∧
    step (doing (.write .word off v) s) = .next t ∧
    t.tcpSlot k = tcpSlotStored (s.tcpSlot k) n v.toNat ∧ (∀ j, j ≠ k → t.tcpSlot j = s.tcpSlot j) ∧
    step (doing (.read .word off) t) = .next { t with rdata := v &&& mask } ∧
    ∀ m, m < 8 → m ≠ n → step (doing (.read .word (BitVec.ofNat 17 (0x11000 + 32 * k + 4 * m))) t) =
      .next { t with rdata := BitVec.ofNat 32 (tcpSlotReads (s.tcpSlot k) m) }

/-- The same for a UDP slot, which has words 0 to 2 and bit 0 of word 3 (10_state.md R43, R44). -/
def Obligations.UdpSlotWordsHoldTheFields : Prop :=
  ∀ (s : State) (k n : Nat) (v : Word), s.Inv → s.cfg.udpEn = true → k < s.cfg.nUdp → n < 8 →
    let off : BitVec 17 := BitVec.ofNat 17 (0x13000 + 32 * k + 4 * n)
    let mask : Word := if n < 3 then 0xFFFFFFFF else if n = 3 then 1 else 0
    let t : State := { s with udp := s.udp.set k (udpSlotStored (s.udpSlot k) n v.toNat) }
    step (doing (.read .word off) s) = .next { s with rdata := BitVec.ofNat 32 (udpSlotReads (s.udpSlot k) n) } ∧
    step (doing (.write .word off v) s) = .next t ∧
    t.udpSlot k = udpSlotStored (s.udpSlot k) n v.toNat ∧ (∀ j, j ≠ k → t.udpSlot j = s.udpSlot j) ∧
    step (doing (.read .word off) t) = .next { t with rdata := v &&& mask } ∧
    ∀ m, m < 8 → m ≠ n → step (doing (.read .word (BitVec.ofNat 17 (0x13000 + 32 * k + 4 * m))) t) =
      .next { t with rdata := BitVec.ofNat 32 (udpSlotReads (s.udpSlot k) m) }

/-- The host's bytes: a byte of BUF or of the send-data region reads as it is, a byte written there is there and no other byte changes;
at or beyond `BUF_SIZE` writes are ignored and reads give 0; beyond `SND_SIZE` the action stops (10_state.md R25, R42, 20_memory.md R50, R54,
70_reset_and_hazards.md R284; that it stops is log 9, where read data goes log 7). -/
def Obligations.HostBytesReadBack : Prop :=
  (∀ (s : State) (a : Nat) (v : Word), a < 0x10000 →
    ∃ t, step (doing (.write .byte (BitVec.ofNat 17 a) v) s) = .next t ∧
      (a < bufSize s.cfg → t.bufByte a = v.setWidth 8 ∧ (∀ x, x ≠ a → t.bufByte x = s.bufByte x) ∧
        t = { s with buf := t.buf } ∧
        step (doing (.read .byte (BitVec.ofNat 17 a)) s) = .next { s with rdata := (s.bufByte a).setWidth 32 } ∧
        step (doing (.read .byte (BitVec.ofNat 17 a)) t) = .next { t with rdata := (v.setWidth 8).setWidth 32 }) ∧
      (bufSize s.cfg ≤ a → t = s ∧
        step (doing (.read .byte (BitVec.ofNat 17 a)) s) = .next { s with rdata := 0 })) ∧
  (∀ (s : State) (a : Word) (b : Byte), a.toNat < s.cfg.sndSize →
    ∃ t, step (doing (.sndWrite a b) s) = .next t ∧ t.sndByte a.toNat = b ∧
      (∀ x, x ≠ a.toNat → t.sndByte x = s.sndByte x) ∧ t = { s with snd := t.snd } ∧
      step (doing (.sndRead a) s) = .next { s with rdata := (s.sndByte a.toNat).setWidth 32 } ∧
      step (doing (.sndRead a) t) = .next { t with rdata := b.setWidth 32 }) ∧
  (∀ (s : State) (a : Word) (b : Byte), s.cfg.sndSize ≤ a.toNat →
    step (doing (.sndWrite a b) s) = .fault .sndAddress ∧ step (doing (.sndRead a) s) = .fault .sndAddress)

/-! ### Checksum arithmetic -/

/-- `fold` repeats the carry step until the number is below 2^16 and no longer (40_checksum.md R101). -/
def Obligations.FoldRepeatsTheCarryStep : Prop :=
  ∀ n : Nat, ∃ k, fold n = (fun m => m % 65536 + m / 65536)^[k] n ∧ fold n < 65536 ∧
    ∀ j, j < k → 65536 ≤ (fun m => m % 65536 + m / 65536)^[j] n

/-- `wsum` adds, for every even `i`, the word of bytes `i` and `i + 1`, a missing last byte being 0 (40_checksum.md R100). -/
def Obligations.WordSumAddsEveryWord : Prop :=
  ∀ l : List Byte, wsum l =
    ∑ j ∈ Finset.range ((l.length + 1) / 2), ((l.getD (2 * j) 0).toNat * 256 + (l.getD (2 * j + 1) 0).toNat)

/-- The facts of 40_checksum.md R103. -/
def Obligations.FoldFactsHold : Prop :=
  (∀ n, fold n = foldClosed n) ∧ (∀ n, fold n = 0 ↔ n = 0) ∧ (∀ n, fold n ≤ 0xFFFF) ∧
  (∀ a b, fold (a + b) = fold (fold a + fold b)) ∧
  (∀ a b : List Byte, a.length % 2 = 0 → fold (wsum (a ++ b)) = fold (wsum a + wsum b)) ∧
  (∀ l : List Byte, csum16 l = 0xFFFF ↔ ∀ b ∈ l, b = 0) ∧
  (∀ l : List Byte, csum16 l = 0 ↔ 0 < wsum l ∧ wsum l % 65535 = 0)

/-- The round-trip law (40_checksum.md R116): the checksum stored in its zeroed field, at an even offset, verifies. -/
def Obligations.RoundTripChecksumLaw : Prop :=
  ∀ a b : List Byte, a.length % 2 = 0 →
    let c := csum16 (a ++ [0, 0] ++ b)
    let stored := a ++ [hi8 c, lo8 c] ++ b
    fold (wsum stored) = 0xFFFF ∧ csum16 stored = 0

/-! ### The checksum commands -/

/-- `ACC32` is addition modulo 2^32, with the carry out of bit 31 discarded and nothing recorded (40_checksum.md R106). -/
def Obligations.AccumulateAddsModulo : Prop :=
  (∀ s : State, exec .acc32 s =
    .next { s with acc32 := BitVec.ofNat 32 ((s.acc32.toNat + s.op16.toNat) % 4294967296) }) ∧
  (∀ s : State, s.acc32 = 0xFFFFFFFF → s.op16 = 1 → exec .acc32 s = .next { s with acc32 := 0 }) ∧
  (∀ s : State, s.op16 = 0 → exec .acc32 s = .next s)

/-- `ICSUM` (40_checksum.md R107): the checksum of the bytes of the range, read raw from `buf`, or `RANGE`. -/
def Obligations.IcsumSumsTheRange : Prop :=
  ∀ s : State,
    (s.csbase.toNat + s.cslen.toNat ≤ bufSize s.cfg →
      ∃ l : List Byte, l.length = s.cslen.toNat ∧ (∀ i, i < s.cslen.toNat → l[i]? = some (s.bufByte (s.csbase.toNat + i))) ∧
        exec .icsum s = .next { s with csres := csum16 l }) ∧
    (bufSize s.cfg < s.csbase.toNat + s.cslen.toNat → exec .icsum s = .next (faulted s 4))

/-- The corner cases of 40_checksum.md R108. -/
def Obligations.IcsumCornerCases : Prop :=
  (∀ s : State, s.cslen = 0 → s.csbase.toNat ≤ bufSize s.cfg → exec .icsum s = .next { s with csres := 0xFFFF }) ∧
  (∀ s : State, s.csbase.toNat + 3 ≤ bufSize s.cfg → s.cslen = 3 → s.bufByte s.csbase.toNat = 0x00 →
    s.bufByte (s.csbase.toNat + 1) = 0x01 → s.bufByte (s.csbase.toNat + 2) = 0xF2 →
    exec .icsum s = .next { s with csres := 0x0DFE }) ∧
  (∀ s : State, s.csbase.toNat + 1 ≤ bufSize s.cfg → s.cslen = 1 → s.bufByte s.csbase.toNat = 0xFF →
    exec .icsum s = .next { s with csres := 0x00FF }) ∧
  (∀ (s : State) (base : Half), s.csbase.toNat + s.cslen.toNat ≤ bufSize s.cfg →
    base.toNat + s.cslen.toNat ≤ bufSize s.cfg →
    (∀ i, i < s.cslen.toNat → s.bufByte (base.toNat + i) = s.bufByte (s.csbase.toNat + i)) →
    ∃ r, exec .icsum s = .next { s with csres := r } ∧
      exec .icsum { s with csbase := base } = .next { s with csbase := base, csres := r }) ∧
  (∀ s : State, s.Inv → s.csbase = 0xFFFF → s.cslen = 0xFFFF → exec .icsum s = .next (faulted s 4))

/-- `IPCSUM` (40_checksum.md R110): the checksum of the 20 bytes from `buf[L]`; it never faults. -/
def Obligations.IpcsumSumsTheHeader : Prop :=
  ∀ s : State, ∃ l : List Byte, l.length = 20 ∧ (∀ i, i < 20 → l[i]? = some (s.bufByte (hdr s + i))) ∧
    exec .ipcsum s = .next { s with csres := csum16 l }

/-- `TCPCSUM` and `UDPCSUM` (40_checksum.md R111 to R115): with a valid view and a total length in bounds, the checksum of the
pseudo-header and the segment through the split view; else `RANGE`. -/
def Obligations.UpperChecksumsSumTheSegment : Prop :=
  ∀ (s : State) (i : Instr) (proto : Byte), (i = .tcpcsum ∧ proto = 6 ∨ i = .udpcsum ∧ proto = 17) →
    let tot := be16 (s.bufByte (hdr s + 2)) (s.bufByte (hdr s + 3))
    let seglen : Half := BitVec.ofNat 16 (tot - 20)
    let ok := viewOk s = true ∧ 20 ≤ tot ∧ hdr s + tot ≤ s.length.toNat
    (ok → exec i s = .next { s with csres := csum16 (
        [s.bufByte (hdr s + 12), s.bufByte (hdr s + 13), s.bufByte (hdr s + 14), s.bufByte (hdr s + 15),
         s.bufByte (hdr s + 16), s.bufByte (hdr s + 17), s.bufByte (hdr s + 18), s.bufByte (hdr s + 19),
         0x00, proto, hi8 seglen, lo8 seglen] ++
        (List.range (tot - 20)).map (fun j => logicalByte s (hdr s + 20 + j))) }) ∧
    (¬ ok → exec i s = .next (faulted s 4))

/-- The logical packet (20_memory.md R55, R56): contiguous without a split, else the header part and then the send-data region. -/
def Obligations.LogicalPacketIsTheTwoRegions : Prop :=
  ∀ s : State,
    let hb := min s.length.toNat s.appdata.toNat
    (s.sndlen = 0 → logicalPacket s = (List.range s.length.toNat).map s.bufByte) ∧
    (s.sndlen ≠ 0 → logicalPacket s =
      (List.range hb).map s.bufByte ++
        (List.range (s.length.toNat - hb)).map (fun j => s.sndByte (s.sndptr.toNat + j)))

/-- The split-equivalence law (40_checksum.md R118) wherever the copy leaves the ten bytes that 40_checksum.md R111 to R113 read raw from
`buf`, the total length and the addresses, as they are (log 17): so with every split that begins at or after `L + 20`. -/
def Obligations.SplitViewEqualsContiguousCopy : Prop :=
  ∀ (s : State) (i : Instr), (i = .tcpcsum ∨ i = .udpcsum) → viewOk s = true →
    (∀ j, (j = 2 ∨ j = 3 ∨ 12 ≤ j ∧ j < 20) → hdr s + j < s.length.toNat →
      logicalByte s (hdr s + j) = s.bufByte (hdr s + j)) →
    ∃ t u, exec i s = .next t ∧
      exec i { s.storeBytes 0 (logicalPacket s) with sndlen := 0 } = .next u ∧
      u.csres = t.csres ∧ u.faultBit = t.faultBit ∧ u.fcode = t.fcode

/-- A split that begins inside the IP header, with `VIEW_OK`, where the command and the command on the contiguous copy differ: the addresses
and the total length are read raw from `buf` (40_checksum.md R111 to R113; log 17). -/
def Obligations.SplitLawNeedsTheHeaderInBuf : Prop :=
  ∃ s t u : State, s.Inv ∧ viewOk s = true ∧ s.sndlen ≠ 0 ∧ s.appdata.toNat < hdr s + 20 ∧ exec .udpcsum s = .next t ∧
    exec .udpcsum { s.storeBytes 0 (logicalPacket s) with sndlen := 0 } = .next u ∧
    (u.csres, u.faultBit) ≠ (t.csres, t.faultBit)

/-- No checksum command depends on a byte outside BUF or SND (20_memory.md R67). -/
def Obligations.ChecksumReadsStayInBounds : Prop :=
  ∀ (s t : State) (i : Instr), ¬ ofPacketUnits i → s.cfg.ok = true → agreeInBounds s t →
    ∃ u v, exec i s = .next u ∧ exec i t = .next v ∧ v.csres = u.csres ∧ v.acc32 = u.acc32 ∧ v.faultBit = u.faultBit ∧
      v.fcode = u.fcode

/-! ### EV_DATA -/

/-- Step 0: a `LENGTH` beyond the buffer faults before anything is written (41_dispatch.md R131, 60_exceptions.md R247). -/
def Obligations.OverlongFrameFaults : Prop :=
  ∀ s : State, bufSize s.cfg < s.length.toNat → exec .evData s = .next (faulted s 4)

/-- Silent drops (41_dispatch.md R149): at steps 1 to 14 exactly `LENGTH` and `SNDLEN` become 0; a NOSLOT drop writes `APPDATA` as
well. No request is made and nothing else changes. -/
def Obligations.DropsAreSilent : Prop :=
  (∀ s : State, s.length.toNat ≤ bufSize s.cfg →
    (¬ ipGood s ∨ (¬ isTcp s ∧ ¬ isUdp s) ∨ (isTcp s ∧ ¬ tcpGood s) ∨ (¬ isTcp s ∧ isUdp s ∧ ¬ udpGood s)) →
    exec .evData s = .next { s with length := 0, sndlen := 0 }) ∧
  (∀ s : State, s.Inv → inboundUdp s → (∀ k, k < s.cfg.nUdp → ¬ udpHit s k) →
    exec .evData s = .next { s with length := 0, sndlen := 0, appdata := BitVec.ofNat 16 (hdr s + 28) })

/-- The law of `EV_DATA` on malformed input (41_dispatch.md R151): a truncated header, an IP version other than 4 or a header
checksum mismatch yields `LENGTH` 0 and leaves both tables unchanged. -/
def Obligations.MalformedInputLeavesTheTables : Prop :=
  ∀ s : State, s.length.toNat ≤ bufSize s.cfg →
    (s.length.toNat < hdr s + 20 ∨ (s.bufByte (hdr s)).toNat / 16 ≠ 4 ∨
      csum16 ((List.range 20).map (fun j => s.bufByte (hdr s + j))) ≠ 0) →
    ∃ t, exec .evData s = .next t ∧ t.length = 0 ∧ t.tcp = s.tcp ∧ t.udp = s.udp ∧ t.faultBit = s.faultBit

/-- A segment of a connection (41_dispatch.md R143, R144): the least matching slot has an enabled keepalive refreshed, is asked
`SEG_IN`, and the answer is finalised; an answer that cannot be raises `BAD_RESPONSE`. -/
def Obligations.SegmentGoesToItsConnection : Prop :=
  ∀ (s : State) (k : Nat), s.Inv → inboundTcp s → k < s.cfg.nTcp → tcpHit s k → (∀ j, j < k → ¬ tcpHit s j) →
    let t := s.tcpSlot k
    let fresh : TcpSlot := if t.kaTimer ≠ 0 then { t with kaTimer := s.cfg.kaIdle, kaCount := 0 } else t
    let r := pbe .segIn k { acceptedTcp s with tcp := s.tcp.set k fresh }
    (tcpAnswered r → exec .evData s = .next (tcpFinished r)) ∧
    (¬ tcpAnswered r → exec .evData s = .next (faulted r 5))

/-- An unmatched segment with a free slot (41_dispatch.md R145): the least inactive slot is offered by `SEG_NEW`. -/
def Obligations.UnmatchedSegmentIsOfferedAFreeSlot : Prop :=
  ∀ (s : State) (f : Nat), s.Inv → inboundTcp s → (∀ k, k < s.cfg.nTcp → ¬ tcpHit s k) →
    f < s.cfg.nTcp → (s.tcpSlot f).active = false → (∀ j, j < f → (s.tcpSlot j).active = true) →
    let r := pbe .segNew f (acceptedTcp s)
    (tcpAnswered r → exec .evData s = .next (tcpFinished r)) ∧
    (¬ tcpAnswered r → exec .evData s = .next (faulted r 5))

/-- An unmatched segment with a full table (41_dispatch.md R145, 43_backend_port.md R218): `SEG_REJECT`, and both tables are as
before. -/
def Obligations.UnmatchedSegmentIsRejectedWhenFull : Prop :=
  ∀ s : State, s.Inv → inboundTcp s → (∀ k, k < s.cfg.nTcp → ¬ tcpHit s k) →
    (∀ k, k < s.cfg.nTcp → (s.tcpSlot k).active = true) →
    let r := pbe .segReject 0 (acceptedTcp s)
    (tcpAnswered r → exec .evData s = .next (tcpFinished r)) ∧
    (¬ tcpAnswered r → exec .evData s = .next (faulted r 5)) ∧ r.tcp = s.tcp ∧ r.udp = s.udp

/-- A datagram for a UDP slot (41_dispatch.md R148): the least matching slot is asked `UDP_IN`, and a reply payload becomes a
datagram; a payload that does not fit raises `RANGE`. -/
def Obligations.DatagramGoesToItsSlot : Prop :=
  ∀ (s : State) (k : Nat), s.Inv → inboundUdp s → k < s.cfg.nUdp → udpHit s k → (∀ j, j < k → ¬ udpHit s j) →
    let r := pbe .udpIn k (acceptedUdp s)
    (payload r = 0 ∨ payloadFits r → exec .evData s = .next (udpFinished k r)) ∧
    (payload r ≠ 0 ∧ ¬ payloadFits r → exec .evData s = .next (faulted r 4))

/-! ### Finished packets verify -/

/-- After `TCP_FINALISE` both checksums verify (41_dispatch.md R152). -/
def Obligations.FinishedSegmentVerifies : Prop :=
  ∀ s : State, s.cfg.ok = true → s.length ≠ 0 → tcpAnswered s →
    upper 6 (tcpFinished s) = some 0 ∧ ipChecksum (tcpFinished s) = 0

/-- After `UDP_FINALISE` both checksums verify, and the stored UDP field is not 0 when `UDP_ZERO_AS_FFFF` (41_dispatch.md R157). -/
def Obligations.FinishedDatagramVerifies : Prop :=
  ∀ (s : State) (u : Nat), s.cfg.ok = true → payload s ≠ 0 → payloadFits s →
    upper 17 (udpFinished u s) = some 0 ∧ ipChecksum (udpFinished u s) = 0 ∧
    (s.cfg.udpZeroAsFfff = true → headerNat (udpFinished u s) 26 ≠ 0)

/-! ### The slot commands -/

/-- `SLOT_RANGE` (60_exceptions.md R245): checked first, against the table the command addresses, with nothing else written;
`EV_TIMER` never raises it. -/
def Obligations.SlotRangeIsCheckedFirst : Prop :=
  (∀ (s : State) (slot : Byte), s.cfg.nTcp ≤ slot.toNat →
    exec (.evPoll slot) s = .next (faulted s 2) ∧ exec (.tcpPoll slot) s = .next (faulted s 2)) ∧
  (∀ (s : State) (slot : Byte), s.cfg.nUdp ≤ slot.toNat →
    exec (.evUdpsend slot) s = .next (faulted s 2) ∧ exec (.evUdptimer slot) s = .next (faulted s 2) ∧
    exec (.udpPoll slot) s = .next (faulted s 2)) ∧
  (∀ s t : State, s.Inv → s.faultBit = false → exec .evTimer s = .next t → t.fcode ≠ 2)

/-- Polling an inactive slot (42_polling.md R182, R196, 41_dispatch.md R163, R164): `LENGTH` becomes 0 and nothing else changes, and
doing it again changes nothing. -/
def Obligations.InactiveSlotPollIsANoOp : Prop :=
  (∀ (s : State) (slot : Byte), slot.toNat < s.cfg.nTcp → (s.tcpSlot slot.toNat).active = false →
    exec (.tcpPoll slot) s = .next { s with length := 0 } ∧ exec (.evPoll slot) s = .next { s with length := 0 } ∧
    exec (.tcpPoll slot) { s with length := 0 } = .next { s with length := 0 }) ∧
  (∀ (s : State) (slot : Byte), slot.toNat < s.cfg.nUdp → (s.udpSlot slot.toNat).active = false →
    exec (.udpPoll slot) s = .next { s with length := 0 } ∧ exec (.evUdptimer slot) s = .next { s with length := 0 } ∧
    exec (.evUdpsend slot) s = .next { s with length := 0 })

/-- `EV_POLL` of an active slot (41_dispatch.md R162): pending-send service, no tick. -/
def Obligations.EvPollServesPendingSend : Prop :=
  ∀ (s : State) (slot : Byte), s.Inv → liveTcp s slot.toNat →
    let r := pbe .pollSend slot.toNat (emptied s)
    (tcpAnswered r → exec (.evPoll slot) s = .next (tcpFinished r)) ∧
    (¬ tcpAnswered r → exec (.evPoll slot) s = .next (faulted r 5))

/-- `TCP_POLL` with no timer expiring (42_polling.md R184, R189): both timers a tick on, then pending-send service. -/
def Obligations.TcpPollServesPendingSend : Prop :=
  ∀ (s : State) (slot : Byte), s.Inv → liveTcp s slot.toNat →
    (s.tcpSlot slot.toNat).rtxTimer ≠ 1 → (s.tcpSlot slot.toNat).kaTimer ≠ 1 →
    let r := pbe .pollSend slot.toNat (emptiedWith s slot.toNat (aged (s.tcpSlot slot.toNat)))
    (tcpAnswered r → exec (.tcpPoll slot) s = .next (tcpFinished r)) ∧
    (¬ tcpAnswered r → exec (.tcpPoll slot) s = .next (faulted r 5))

/-- `TCP_POLL` when the retransmission timer expires below the bound (42_polling.md R185, R187): the count goes up, the timer is
reloaded from the new count, a keepalive expiry waits a tick, and `RETRANSMIT` is asked. -/
def Obligations.TcpPollRetransmits : Prop :=
  ∀ (s : State) (slot : Byte), s.Inv → liveTcp s slot.toNat →
    (s.tcpSlot slot.toNat).rtxTimer = 1 → (s.tcpSlot slot.toNat).rtxCount.toNat < s.cfg.maxRtx.toNat →
    let t := s.tcpSlot slot.toNat
    let next : TcpSlot := { agedHeld t with
      rtxCount := t.rtxCount + 1, rtxTimer := s.cfg.rtoReload.getD t.rtxCount.toNat 1 }
    let r := pbe .retransmit slot.toNat (emptiedWith s slot.toNat next)
    (tcpAnswered r → exec (.tcpPoll slot) s = .next (tcpFinished r)) ∧
    (¬ tcpAnswered r → exec (.tcpPoll slot) s = .next (faulted r 5))

/-- `TCP_POLL` when the keepalive timer alone expires below the bound (42_polling.md R186). -/
def Obligations.TcpPollProbes : Prop :=
  ∀ (s : State) (slot : Byte), s.Inv → liveTcp s slot.toNat →
    (s.tcpSlot slot.toNat).rtxTimer ≠ 1 → (s.tcpSlot slot.toNat).kaTimer = 1 →
    (s.tcpSlot slot.toNat).kaCount.toNat < s.cfg.maxKa.toNat →
    let t := s.tcpSlot slot.toNat
    let next : TcpSlot := { aged t with kaCount := t.kaCount + 1, kaTimer := s.cfg.kaIntvl }
    let r := pbe .keepalive slot.toNat (emptiedWith s slot.toNat next)
    (tcpAnswered r → exec (.tcpPoll slot) s = .next (tcpFinished r)) ∧
    (¬ tcpAnswered r → exec (.tcpPoll slot) s = .next (faulted r 5))

/-- `TCP_POLL` at a bound (42_polling.md R185, R186, R188): `ABORT`, the answer finalised, then the slot closed with its identity as
the back-end left it; an answer that cannot be finalised raises before the slot is closed. -/
def Obligations.TcpPollTearsDownAtTheBound : Prop :=
  ∀ (s : State) (slot : Byte), s.Inv → liveTcp s slot.toNat →
    let t := s.tcpSlot slot.toNat
    (t.rtxTimer = 1 ∧ s.cfg.maxRtx.toNat ≤ t.rtxCount.toNat ∨
      t.rtxTimer ≠ 1 ∧ t.kaTimer = 1 ∧ s.cfg.maxKa.toNat ≤ t.kaCount.toNat) →
    let r := pbe .abort slot.toNat (emptiedWith s slot.toNat (if t.rtxTimer = 1 then agedHeld t else aged t))
    let u := tcpFinished r
    (tcpAnswered r → exec (.tcpPoll slot) s =
      .next { u with tcp := r.tcp.set slot.toNat (closed (r.tcpSlot slot.toNat)) }) ∧
    (¬ tcpAnswered r → exec (.tcpPoll slot) s = .next (faulted r 5))

/-- `UDP_POLL` and `EV_UDPTIMER` of an active slot are one operation (41_dispatch.md R166, 42_polling.md R195): `UDP_POLL` is asked and
the payload left becomes a datagram; one that does not fit raises `RANGE`. -/
def Obligations.UdpPollOffersAChanceToSend : Prop :=
  ∀ (s : State) (slot : Byte) (i : Instr), (i = .udpPoll slot ∨ i = .evUdptimer slot) → s.Inv →
    liveUdp s slot.toNat →
    let r := pbe .udpPoll slot.toNat (emptied s)
    (payload r = 0 ∨ payloadFits r → exec i s = .next (udpFinished slot.toNat r)) ∧
    (payload r ≠ 0 ∧ ¬ payloadFits r → exec i s = .next (faulted r 4))

/-- `EV_UDPSEND` of an active slot (41_dispatch.md R164, R165): a datagram around the payload in place, no request; nothing to send
gives `LENGTH` 0; a payload that does not fit raises `RANGE` with only `STATUS` changed. -/
def Obligations.UdpSendBuildsTheDatagram : Prop :=
  ∀ (s : State) (slot : Byte), s.Inv → liveUdp s slot.toNat →
    (payload s ≠ 0 → payloadFits s → exec (.evUdpsend slot) s = .next (udpFinished slot.toNat s)) ∧
    (s.sndlen = 0 → s.length.toNat ≤ hdr s + 28 → exec (.evUdpsend slot) s = .next { s with length := 0 }) ∧
    (payload s ≠ 0 → ¬ payloadFits s → exec (.evUdpsend slot) s = .next (faulted s 4))

/-! ### EV_TIMER -/

/-- With every slot from the cursor on inactive one `EV_TIMER` ends the tick (41_dispatch.md R160): the cursor and `LENGTH` are 0 and nothing
else changes. -/
def Obligations.IdleTickEndsInOneCommand : Prop :=
  ∀ s : State, s.Inv → s.scan.toNat < totalSlots s.cfg →
    (∀ n, s.scan.toNat ≤ n → n < totalSlots s.cfg → scanIdle s n) →
    exec .evTimer s = .next { s with length := 0, scan := 0 }

/-- `EV_TIMER` stops at the first poll that leaves a packet or faults (41_dispatch.md R160, 60_exceptions.md R247): past inactive slots, it
ends as the poll of the first active one does, with the cursor after it; a fault keeps the cursor's write, one past the slot, also past the
last (log 15). -/
def Obligations.TimerStopsAtThePacketOrFault : Prop :=
  ∀ (s t : State) (n : Nat), s.Inv → s.scan.toNat ≤ n → n < totalSlots s.cfg →
    (∀ j, s.scan.toNat ≤ j → j < n → scanIdle s j) →
    exec (pollCommand s n) s = .next t → s.faultBit = false →
    (t.faultBit = false → t.length ≠ 0 → exec .evTimer s = .next { t with scan := cursorAfter s n }) ∧
    (t.faultBit = true → exec .evTimer s = .next { t with scan := BitVec.ofNat 10 (n + 1) })

/-- `EV_TIMER` goes on past a poll that leaves no packet (41_dispatch.md R160): it ends as a fresh `EV_TIMER` would from the state that
poll left with the cursor moved up, and after the last slot in that state with the cursor 0. -/
def Obligations.TimerGoesOnPastAQuietPoll : Prop :=
  ∀ s t : State, s.Inv → s.scan.toNat < totalSlots s.cfg →
    exec (pollCommand s s.scan.toNat) s = .next t → t.faultBit = false → s.faultBit = false → t.length = 0 →
    (s.scan.toNat + 1 < totalSlots s.cfg → exec .evTimer s = exec .evTimer { t with scan := s.scan + 1 }) ∧
    (s.scan.toNat + 1 = totalSlots s.cfg → exec .evTimer s = .next { t with scan := 0 })

/-- A tick of `EV_TIMER` commands and the explicit per-slot loop make the same requests, transmit the same packets in the same order and
end in the same state but for the cursor (42_polling.md R197, 41_dispatch.md R161). -/
def Obligations.TimerTickEqualsTheExplicitLoop : Prop :=
  ∀ s : State, s.Inv → s.faultBit = false → s.scan = 0 →
    let a := timerTick (totalSlots s.cfg) s []
    let b := runCommands (explicitLoop s.cfg) s []
    { a.1 with scan := 0 } = b.1 ∧ a.2 = b.2 ∧ (b.1.faultBit = false → a.1.scan = 0)

/-! ### The back-end -/

/-- The frame condition (43_backend_port.md R214): what one request may change, and that it is logged once (that a
write outside the frame is not applied is log 5). -/
def Obligations.BackendKeepsItsFrame : Prop :=
  ∀ (k : PbeKind) (slot : Nat) (s : State),
    let t := pbe k slot s
    t.cfg = s.cfg ∧ t.csbase = s.csbase ∧ t.cslen = s.cslen ∧ t.csres = s.csres ∧ t.acc32 = s.acc32 ∧
    t.op16 = s.op16 ∧ t.scan = s.scan ∧ t.ipid = s.ipid ∧ t.faultBit = s.faultBit ∧ t.fcode = s.fcode ∧
    t.script = s.script ∧ t.rdata = s.rdata ∧ t.requests = ⟨k, BitVec.ofNat 8 slot⟩ :: s.requests ∧
    (∀ a, a < hdr s ∨ bufSize s.cfg ≤ a → t.bufByte a = s.bufByte a) ∧
    (∀ j, (j ≠ slot ∨ k = .segReject ∨ k = .udpIn ∨ k = .udpPoll) → t.tcpSlot j = s.tcpSlot j) ∧
    (∀ j, (j ≠ slot ∨ (k ≠ .udpIn ∧ k ≠ .udpPoll)) → t.udpSlot j = s.udpSlot j)

/-- Any answer the frame allows can be given (43_backend_port.md R210, R212; that answers are listed is log 4): from a
state that lists it first, a request leaves the four registers, the named slot and a written byte of `buf` as the answer says. -/
def Obligations.ListedAnswerIsGiven : Prop :=
  ∀ (s : State) (k : PbeKind) (slot : Nat) (a : PbeAnswer) (rest : List PbeAnswer), s.answers = a :: rest →
    let t := pbe k slot s
    t.answers = rest ∧ t.length = a.length.getD s.length ∧ t.appdata = a.appdata.getD s.appdata ∧
    t.sndptr = a.sndptr.getD s.sndptr ∧ t.sndlen = a.sndlen.getD s.sndlen ∧
    (namesTcp k = true → slot < s.tcp.length → t.tcpSlot slot = a.tcp.getD (s.tcpSlot slot)) ∧
    (namesUdp k = true → slot < s.udp.length → t.udpSlot slot = a.udp.getD (s.udpSlot slot)) ∧
    (∀ x v, a.bufWrites = [(x, v)] → hdr s ≤ x → x < bufSize s.cfg → t.bufByte x = v)

/-! ### Rules of the whole machine -/

/-- Every step keeps the invariant: legal parameters, tables of their size, canonical memory inside its spaces, `FCODE` 0 exactly while
`FAULT` is 0 and never a reserved code, the cursor below `N_TOT` between commands while not
faulted (10_state.md R26, R37, R39, 60_exceptions.md R246; that a fault may leave the cursor at `N_TOT` is log 15). -/
def Obligations.StepKeepsTheInvariant : Prop := ∀ s t : State, s.Inv → step s = .next t → t.Inv

/-- The state after reset, with the parameters of log 1, meets the invariant. -/
def Obligations.ResetMeetsTheInvariant : Prop := State.reset.Inv

/-- No command writes the link-header reserve `buf[0 : L]` (20_memory.md R58). -/
def Obligations.LinkHeaderIsNeverWritten : Prop :=
  ∀ (i : Instr) (s t : State) (a : Nat), s.cfg.ok = true → exec i s = .next t → a < hdr s → t.bufByte a = s.bufByte a

/-- A packet or polling command leaves the checksum unit's registers, the parameters, the host's side and, unless it makes a request, the
send-data region as they were (40_checksum.md R119, 30_encoding.md R83, 20_memory.md R51). -/
def Obligations.PacketCommandsKeepTheirFrame : Prop :=
  ∀ (i : Instr) (s t : State), s.cfg.ok = true → ofPacketUnits i → exec i s = .next t →
    t.csbase = s.csbase ∧ t.cslen = s.cslen ∧ t.csres = s.csres ∧ t.acc32 = s.acc32 ∧ t.op16 = s.op16 ∧
    t.cfg = s.cfg ∧ t.script = s.script ∧ t.rdata = s.rdata ∧ t.tcp.length = s.tcp.length ∧
    t.udp.length = s.udp.length ∧ (i ≠ .evTimer → t.scan = s.scan) ∧
    (∀ a, bufSize s.cfg ≤ a → t.bufByte a = s.bufByte a) ∧
    (t.requests = s.requests → ∀ a, t.sndByte a = s.sndByte a)

/-- A slot command changes no slot but the one it names, and no slot of the other table (30_encoding.md R83); `EV_UDPSEND`
changes no slot at all. -/
def Obligations.SlotCommandsTouchOneSlot : Prop :=
  ∀ (s t : State) (slot : Byte), s.cfg.ok = true →
    (exec (.tcpPoll slot) s = .next t ∨ exec (.evPoll slot) s = .next t →
      t.udp = s.udp ∧ ∀ j, j ≠ slot.toNat → t.tcpSlot j = s.tcpSlot j) ∧
    (exec (.udpPoll slot) s = .next t ∨ exec (.evUdptimer slot) s = .next t →
      t.tcp = s.tcp ∧ ∀ j, j ≠ slot.toNat → t.udpSlot j = s.udpSlot j) ∧
    (exec (.evUdpsend slot) s = .next t → t.tcp = s.tcp ∧ t.udp = s.udp)

/-- A poll makes at most one request (42_polling.md R191), and `EV_UDPSEND` none (41_dispatch.md R164). -/
def Obligations.PollMakesAtMostOneRequest : Prop :=
  ∀ (s t : State) (slot : Byte) (i : Instr), s.cfg.ok = true → exec i s = .next t →
    (i = .tcpPoll slot ∨ i = .udpPoll slot ∨ i = .evPoll slot ∨ i = .evUdptimer slot ∨ i = .evData →
      t.requests = s.requests ∨ ∃ r, t.requests = r :: s.requests) ∧
    (i = .evUdpsend slot → t.requests = s.requests)

/-- No command sets `active` to 1 (10_state.md R31): a TCP slot becomes active in a command only when `EV_DATA` offered it to the back-end
by `SEG_NEW`, and a UDP slot never does. -/
def Obligations.OnlyTheBackendActivatesASlot : Prop :=
  ∀ (i : Instr) (s t : State) (k : Nat), s.Inv → exec i s = .next t →
    ((s.tcpSlot k).active = false → (t.tcpSlot k).active = true →
      i = .evData ∧ t.requests = ⟨.segNew, BitVec.ofNat 8 k⟩ :: s.requests) ∧
    ((s.udpSlot k).active = false → (t.udpSlot k).active = false)
end

