-- ==== Sys2Proof/Laws/Arithmetic.lean ====
section
/-! SUPPORT. The arithmetic of the checksums: what one carry step and `fold` keep, and `wsum` of a concatenation. -/

namespace Sys2Proof.Machine

theorem foldStep_lt {n : Nat} (h : 65536 ≤ n) : foldStep n < n := by unfold foldStep; omega
theorem foldStep_mod (n : Nat) : foldStep n % 65535 = n % 65535 := by unfold foldStep; omega
theorem foldStep_pos {n : Nat} (h : 0 < n) : 0 < foldStep n := by unfold foldStep; omega

theorem foldFrom_spec (k n : Nat) (h : n ≤ k) : foldFrom k n < 65536 ∧ foldFrom k n % 65535 = n % 65535 ∧ (0 < n → 0 < foldFrom k n) ∧ (n = 0 → foldFrom k n = 0) := by
  induction k generalizing n with
  | zero => have : n = 0 := by omega
            subst this; simp [foldFrom]
  | succ k ih =>
    unfold foldFrom
    split_ifs with hn
    · exact ⟨hn, rfl, fun h => h, fun h => h⟩
    · have := ih (foldStep n) (by have := foldStep_lt (n := n) (by omega); omega)
      refine ⟨this.1, by rw [this.2.1, foldStep_mod], fun h => this.2.2.1 (foldStep_pos h), fun h => by omega⟩

theorem wsum_append (a b : List Byte) (h : a.length % 2 = 0) : wsum (a ++ b) = wsum a + wsum b := by
  induction a using wsum.induct with
  | case1 => simp [wsum]
  | case2 x => simp at h
  | case3 x y r ih => 
    simp only [List.cons_append, wsum]; rw [ih (by simp at h; omega)]; omega

theorem hi_lo (c : Half) : (hi8 c).toNat * 256 + (lo8 c).toNat = c.toNat := by
  unfold hi8 lo8; rw [BitVec.extractLsb'_toNat, BitVec.extractLsb'_toNat, Nat.shiftRight_eq_div_pow]
  have := c.isLt; simp; omega

end Sys2Proof.Machine
end

