-- ==== Sys2Proof/Laws/State.lean ====
section
/-! SUPPORT. The small lemmas of the state's updates: what each field is after each update, true by `rfl`. -/

namespace Sys2Proof.Machine

variable (s : State)

/-! ### storeBuf -/

@[simp] theorem State.storeBuf_cfg (a : Nat) (v : Byte) : (s.storeBuf a v).cfg = s.cfg := rfl
@[simp] theorem State.storeBuf_buf (a : Nat) (v : Byte) : (s.storeBuf a v).buf = memWrite s.buf a v := rfl
@[simp] theorem State.storeBuf_length (a : Nat) (v : Byte) : (s.storeBuf a v).length = s.length := rfl
@[simp] theorem State.storeBuf_appdata (a : Nat) (v : Byte) : (s.storeBuf a v).appdata = s.appdata := rfl
@[simp] theorem State.storeBuf_sndptr (a : Nat) (v : Byte) : (s.storeBuf a v).sndptr = s.sndptr := rfl
@[simp] theorem State.storeBuf_sndlen (a : Nat) (v : Byte) : (s.storeBuf a v).sndlen = s.sndlen := rfl
@[simp] theorem State.storeBuf_snd (a : Nat) (v : Byte) : (s.storeBuf a v).snd = s.snd := rfl
@[simp] theorem State.storeBuf_tcp (a : Nat) (v : Byte) : (s.storeBuf a v).tcp = s.tcp := rfl
@[simp] theorem State.storeBuf_udp (a : Nat) (v : Byte) : (s.storeBuf a v).udp = s.udp := rfl
@[simp] theorem State.storeBuf_csbase (a : Nat) (v : Byte) : (s.storeBuf a v).csbase = s.csbase := rfl
@[simp] theorem State.storeBuf_cslen (a : Nat) (v : Byte) : (s.storeBuf a v).cslen = s.cslen := rfl
@[simp] theorem State.storeBuf_csres (a : Nat) (v : Byte) : (s.storeBuf a v).csres = s.csres := rfl
@[simp] theorem State.storeBuf_acc32 (a : Nat) (v : Byte) : (s.storeBuf a v).acc32 = s.acc32 := rfl
@[simp] theorem State.storeBuf_op16 (a : Nat) (v : Byte) : (s.storeBuf a v).op16 = s.op16 := rfl
@[simp] theorem State.storeBuf_scan (a : Nat) (v : Byte) : (s.storeBuf a v).scan = s.scan := rfl
@[simp] theorem State.storeBuf_ipid (a : Nat) (v : Byte) : (s.storeBuf a v).ipid = s.ipid := rfl
@[simp] theorem State.storeBuf_faultBit (a : Nat) (v : Byte) : (s.storeBuf a v).faultBit = s.faultBit := rfl
@[simp] theorem State.storeBuf_fcode (a : Nat) (v : Byte) : (s.storeBuf a v).fcode = s.fcode := rfl
@[simp] theorem State.storeBuf_script (a : Nat) (v : Byte) : (s.storeBuf a v).script = s.script := rfl
@[simp] theorem State.storeBuf_rdata (a : Nat) (v : Byte) : (s.storeBuf a v).rdata = s.rdata := rfl
@[simp] theorem State.storeBuf_answers (a : Nat) (v : Byte) : (s.storeBuf a v).answers = s.answers := rfl
@[simp] theorem State.storeBuf_requests (a : Nat) (v : Byte) : (s.storeBuf a v).requests = s.requests := rfl
@[simp] theorem State.storeBuf_draws (a : Nat) (v : Byte) : (s.storeBuf a v).draws = s.draws := rfl
@[simp] theorem State.storeBuf_bufDraw (a : Nat) (v : Byte) : (s.storeBuf a v).bufDraw = s.bufDraw := rfl
@[simp] theorem State.storeBuf_sndDraw (a : Nat) (v : Byte) : (s.storeBuf a v).sndDraw = s.sndDraw := rfl

/-! ### storeSnd -/

@[simp] theorem State.storeSnd_cfg (a : Nat) (v : Byte) : (s.storeSnd a v).cfg = s.cfg := rfl
@[simp] theorem State.storeSnd_buf (a : Nat) (v : Byte) : (s.storeSnd a v).buf = s.buf := rfl
@[simp] theorem State.storeSnd_length (a : Nat) (v : Byte) : (s.storeSnd a v).length = s.length := rfl
@[simp] theorem State.storeSnd_appdata (a : Nat) (v : Byte) : (s.storeSnd a v).appdata = s.appdata := rfl
@[simp] theorem State.storeSnd_sndptr (a : Nat) (v : Byte) : (s.storeSnd a v).sndptr = s.sndptr := rfl
@[simp] theorem State.storeSnd_sndlen (a : Nat) (v : Byte) : (s.storeSnd a v).sndlen = s.sndlen := rfl
@[simp] theorem State.storeSnd_snd (a : Nat) (v : Byte) : (s.storeSnd a v).snd = memWrite s.snd a v := rfl
@[simp] theorem State.storeSnd_tcp (a : Nat) (v : Byte) : (s.storeSnd a v).tcp = s.tcp := rfl
@[simp] theorem State.storeSnd_udp (a : Nat) (v : Byte) : (s.storeSnd a v).udp = s.udp := rfl
@[simp] theorem State.storeSnd_csbase (a : Nat) (v : Byte) : (s.storeSnd a v).csbase = s.csbase := rfl
@[simp] theorem State.storeSnd_cslen (a : Nat) (v : Byte) : (s.storeSnd a v).cslen = s.cslen := rfl
@[simp] theorem State.storeSnd_csres (a : Nat) (v : Byte) : (s.storeSnd a v).csres = s.csres := rfl
@[simp] theorem State.storeSnd_acc32 (a : Nat) (v : Byte) : (s.storeSnd a v).acc32 = s.acc32 := rfl
@[simp] theorem State.storeSnd_op16 (a : Nat) (v : Byte) : (s.storeSnd a v).op16 = s.op16 := rfl
@[simp] theorem State.storeSnd_scan (a : Nat) (v : Byte) : (s.storeSnd a v).scan = s.scan := rfl
@[simp] theorem State.storeSnd_ipid (a : Nat) (v : Byte) : (s.storeSnd a v).ipid = s.ipid := rfl
@[simp] theorem State.storeSnd_faultBit (a : Nat) (v : Byte) : (s.storeSnd a v).faultBit = s.faultBit := rfl
@[simp] theorem State.storeSnd_fcode (a : Nat) (v : Byte) : (s.storeSnd a v).fcode = s.fcode := rfl
@[simp] theorem State.storeSnd_script (a : Nat) (v : Byte) : (s.storeSnd a v).script = s.script := rfl
@[simp] theorem State.storeSnd_rdata (a : Nat) (v : Byte) : (s.storeSnd a v).rdata = s.rdata := rfl
@[simp] theorem State.storeSnd_answers (a : Nat) (v : Byte) : (s.storeSnd a v).answers = s.answers := rfl
@[simp] theorem State.storeSnd_requests (a : Nat) (v : Byte) : (s.storeSnd a v).requests = s.requests := rfl
@[simp] theorem State.storeSnd_draws (a : Nat) (v : Byte) : (s.storeSnd a v).draws = s.draws := rfl
@[simp] theorem State.storeSnd_bufDraw (a : Nat) (v : Byte) : (s.storeSnd a v).bufDraw = s.bufDraw := rfl
@[simp] theorem State.storeSnd_sndDraw (a : Nat) (v : Byte) : (s.storeSnd a v).sndDraw = s.sndDraw := rfl

/-! ### setLength -/

@[simp] theorem State.setLength_cfg (v : Half) : (s.setLength v).cfg = s.cfg := rfl
@[simp] theorem State.setLength_buf (v : Half) : (s.setLength v).buf = s.buf := rfl
@[simp] theorem State.setLength_length (v : Half) : (s.setLength v).length = v := rfl
@[simp] theorem State.setLength_appdata (v : Half) : (s.setLength v).appdata = s.appdata := rfl
@[simp] theorem State.setLength_sndptr (v : Half) : (s.setLength v).sndptr = s.sndptr := rfl
@[simp] theorem State.setLength_sndlen (v : Half) : (s.setLength v).sndlen = s.sndlen := rfl
@[simp] theorem State.setLength_snd (v : Half) : (s.setLength v).snd = s.snd := rfl
@[simp] theorem State.setLength_tcp (v : Half) : (s.setLength v).tcp = s.tcp := rfl
@[simp] theorem State.setLength_udp (v : Half) : (s.setLength v).udp = s.udp := rfl
@[simp] theorem State.setLength_csbase (v : Half) : (s.setLength v).csbase = s.csbase := rfl
@[simp] theorem State.setLength_cslen (v : Half) : (s.setLength v).cslen = s.cslen := rfl
@[simp] theorem State.setLength_csres (v : Half) : (s.setLength v).csres = s.csres := rfl
@[simp] theorem State.setLength_acc32 (v : Half) : (s.setLength v).acc32 = s.acc32 := rfl
@[simp] theorem State.setLength_op16 (v : Half) : (s.setLength v).op16 = s.op16 := rfl
@[simp] theorem State.setLength_scan (v : Half) : (s.setLength v).scan = s.scan := rfl
@[simp] theorem State.setLength_ipid (v : Half) : (s.setLength v).ipid = s.ipid := rfl
@[simp] theorem State.setLength_faultBit (v : Half) : (s.setLength v).faultBit = s.faultBit := rfl
@[simp] theorem State.setLength_fcode (v : Half) : (s.setLength v).fcode = s.fcode := rfl
@[simp] theorem State.setLength_script (v : Half) : (s.setLength v).script = s.script := rfl
@[simp] theorem State.setLength_rdata (v : Half) : (s.setLength v).rdata = s.rdata := rfl
@[simp] theorem State.setLength_answers (v : Half) : (s.setLength v).answers = s.answers := rfl
@[simp] theorem State.setLength_requests (v : Half) : (s.setLength v).requests = s.requests := rfl
@[simp] theorem State.setLength_draws (v : Half) : (s.setLength v).draws = s.draws := rfl
@[simp] theorem State.setLength_bufDraw (v : Half) : (s.setLength v).bufDraw = s.bufDraw := rfl
@[simp] theorem State.setLength_sndDraw (v : Half) : (s.setLength v).sndDraw = s.sndDraw := rfl

/-! ### setAppdata -/

@[simp] theorem State.setAppdata_cfg (v : Half) : (s.setAppdata v).cfg = s.cfg := rfl
@[simp] theorem State.setAppdata_buf (v : Half) : (s.setAppdata v).buf = s.buf := rfl
@[simp] theorem State.setAppdata_length (v : Half) : (s.setAppdata v).length = s.length := rfl
@[simp] theorem State.setAppdata_appdata (v : Half) : (s.setAppdata v).appdata = v := rfl
@[simp] theorem State.setAppdata_sndptr (v : Half) : (s.setAppdata v).sndptr = s.sndptr := rfl
@[simp] theorem State.setAppdata_sndlen (v : Half) : (s.setAppdata v).sndlen = s.sndlen := rfl
@[simp] theorem State.setAppdata_snd (v : Half) : (s.setAppdata v).snd = s.snd := rfl
@[simp] theorem State.setAppdata_tcp (v : Half) : (s.setAppdata v).tcp = s.tcp := rfl
@[simp] theorem State.setAppdata_udp (v : Half) : (s.setAppdata v).udp = s.udp := rfl
@[simp] theorem State.setAppdata_csbase (v : Half) : (s.setAppdata v).csbase = s.csbase := rfl
@[simp] theorem State.setAppdata_cslen (v : Half) : (s.setAppdata v).cslen = s.cslen := rfl
@[simp] theorem State.setAppdata_csres (v : Half) : (s.setAppdata v).csres = s.csres := rfl
@[simp] theorem State.setAppdata_acc32 (v : Half) : (s.setAppdata v).acc32 = s.acc32 := rfl
@[simp] theorem State.setAppdata_op16 (v : Half) : (s.setAppdata v).op16 = s.op16 := rfl
@[simp] theorem State.setAppdata_scan (v : Half) : (s.setAppdata v).scan = s.scan := rfl
@[simp] theorem State.setAppdata_ipid (v : Half) : (s.setAppdata v).ipid = s.ipid := rfl
@[simp] theorem State.setAppdata_faultBit (v : Half) : (s.setAppdata v).faultBit = s.faultBit := rfl
@[simp] theorem State.setAppdata_fcode (v : Half) : (s.setAppdata v).fcode = s.fcode := rfl
@[simp] theorem State.setAppdata_script (v : Half) : (s.setAppdata v).script = s.script := rfl
@[simp] theorem State.setAppdata_rdata (v : Half) : (s.setAppdata v).rdata = s.rdata := rfl
@[simp] theorem State.setAppdata_answers (v : Half) : (s.setAppdata v).answers = s.answers := rfl
@[simp] theorem State.setAppdata_requests (v : Half) : (s.setAppdata v).requests = s.requests := rfl
@[simp] theorem State.setAppdata_draws (v : Half) : (s.setAppdata v).draws = s.draws := rfl
@[simp] theorem State.setAppdata_bufDraw (v : Half) : (s.setAppdata v).bufDraw = s.bufDraw := rfl
@[simp] theorem State.setAppdata_sndDraw (v : Half) : (s.setAppdata v).sndDraw = s.sndDraw := rfl

/-! ### setSndptr -/

@[simp] theorem State.setSndptr_cfg (v : Word) : (s.setSndptr v).cfg = s.cfg := rfl
@[simp] theorem State.setSndptr_buf (v : Word) : (s.setSndptr v).buf = s.buf := rfl
@[simp] theorem State.setSndptr_length (v : Word) : (s.setSndptr v).length = s.length := rfl
@[simp] theorem State.setSndptr_appdata (v : Word) : (s.setSndptr v).appdata = s.appdata := rfl
@[simp] theorem State.setSndptr_sndptr (v : Word) : (s.setSndptr v).sndptr = v := rfl
@[simp] theorem State.setSndptr_sndlen (v : Word) : (s.setSndptr v).sndlen = s.sndlen := rfl
@[simp] theorem State.setSndptr_snd (v : Word) : (s.setSndptr v).snd = s.snd := rfl
@[simp] theorem State.setSndptr_tcp (v : Word) : (s.setSndptr v).tcp = s.tcp := rfl
@[simp] theorem State.setSndptr_udp (v : Word) : (s.setSndptr v).udp = s.udp := rfl
@[simp] theorem State.setSndptr_csbase (v : Word) : (s.setSndptr v).csbase = s.csbase := rfl
@[simp] theorem State.setSndptr_cslen (v : Word) : (s.setSndptr v).cslen = s.cslen := rfl
@[simp] theorem State.setSndptr_csres (v : Word) : (s.setSndptr v).csres = s.csres := rfl
@[simp] theorem State.setSndptr_acc32 (v : Word) : (s.setSndptr v).acc32 = s.acc32 := rfl
@[simp] theorem State.setSndptr_op16 (v : Word) : (s.setSndptr v).op16 = s.op16 := rfl
@[simp] theorem State.setSndptr_scan (v : Word) : (s.setSndptr v).scan = s.scan := rfl
@[simp] theorem State.setSndptr_ipid (v : Word) : (s.setSndptr v).ipid = s.ipid := rfl
@[simp] theorem State.setSndptr_faultBit (v : Word) : (s.setSndptr v).faultBit = s.faultBit := rfl
@[simp] theorem State.setSndptr_fcode (v : Word) : (s.setSndptr v).fcode = s.fcode := rfl
@[simp] theorem State.setSndptr_script (v : Word) : (s.setSndptr v).script = s.script := rfl
@[simp] theorem State.setSndptr_rdata (v : Word) : (s.setSndptr v).rdata = s.rdata := rfl
@[simp] theorem State.setSndptr_answers (v : Word) : (s.setSndptr v).answers = s.answers := rfl
@[simp] theorem State.setSndptr_requests (v : Word) : (s.setSndptr v).requests = s.requests := rfl
@[simp] theorem State.setSndptr_draws (v : Word) : (s.setSndptr v).draws = s.draws := rfl
@[simp] theorem State.setSndptr_bufDraw (v : Word) : (s.setSndptr v).bufDraw = s.bufDraw := rfl
@[simp] theorem State.setSndptr_sndDraw (v : Word) : (s.setSndptr v).sndDraw = s.sndDraw := rfl

/-! ### setSndlen -/

@[simp] theorem State.setSndlen_cfg (v : Half) : (s.setSndlen v).cfg = s.cfg := rfl
@[simp] theorem State.setSndlen_buf (v : Half) : (s.setSndlen v).buf = s.buf := rfl
@[simp] theorem State.setSndlen_length (v : Half) : (s.setSndlen v).length = s.length := rfl
@[simp] theorem State.setSndlen_appdata (v : Half) : (s.setSndlen v).appdata = s.appdata := rfl
@[simp] theorem State.setSndlen_sndptr (v : Half) : (s.setSndlen v).sndptr = s.sndptr := rfl
@[simp] theorem State.setSndlen_sndlen (v : Half) : (s.setSndlen v).sndlen = v := rfl
@[simp] theorem State.setSndlen_snd (v : Half) : (s.setSndlen v).snd = s.snd := rfl
@[simp] theorem State.setSndlen_tcp (v : Half) : (s.setSndlen v).tcp = s.tcp := rfl
@[simp] theorem State.setSndlen_udp (v : Half) : (s.setSndlen v).udp = s.udp := rfl
@[simp] theorem State.setSndlen_csbase (v : Half) : (s.setSndlen v).csbase = s.csbase := rfl
@[simp] theorem State.setSndlen_cslen (v : Half) : (s.setSndlen v).cslen = s.cslen := rfl
@[simp] theorem State.setSndlen_csres (v : Half) : (s.setSndlen v).csres = s.csres := rfl
@[simp] theorem State.setSndlen_acc32 (v : Half) : (s.setSndlen v).acc32 = s.acc32 := rfl
@[simp] theorem State.setSndlen_op16 (v : Half) : (s.setSndlen v).op16 = s.op16 := rfl
@[simp] theorem State.setSndlen_scan (v : Half) : (s.setSndlen v).scan = s.scan := rfl
@[simp] theorem State.setSndlen_ipid (v : Half) : (s.setSndlen v).ipid = s.ipid := rfl
@[simp] theorem State.setSndlen_faultBit (v : Half) : (s.setSndlen v).faultBit = s.faultBit := rfl
@[simp] theorem State.setSndlen_fcode (v : Half) : (s.setSndlen v).fcode = s.fcode := rfl
@[simp] theorem State.setSndlen_script (v : Half) : (s.setSndlen v).script = s.script := rfl
@[simp] theorem State.setSndlen_rdata (v : Half) : (s.setSndlen v).rdata = s.rdata := rfl
@[simp] theorem State.setSndlen_answers (v : Half) : (s.setSndlen v).answers = s.answers := rfl
@[simp] theorem State.setSndlen_requests (v : Half) : (s.setSndlen v).requests = s.requests := rfl
@[simp] theorem State.setSndlen_draws (v : Half) : (s.setSndlen v).draws = s.draws := rfl
@[simp] theorem State.setSndlen_bufDraw (v : Half) : (s.setSndlen v).bufDraw = s.bufDraw := rfl
@[simp] theorem State.setSndlen_sndDraw (v : Half) : (s.setSndlen v).sndDraw = s.sndDraw := rfl

/-! ### setCsbase -/

@[simp] theorem State.setCsbase_cfg (v : Half) : (s.setCsbase v).cfg = s.cfg := rfl
@[simp] theorem State.setCsbase_buf (v : Half) : (s.setCsbase v).buf = s.buf := rfl
@[simp] theorem State.setCsbase_length (v : Half) : (s.setCsbase v).length = s.length := rfl
@[simp] theorem State.setCsbase_appdata (v : Half) : (s.setCsbase v).appdata = s.appdata := rfl
@[simp] theorem State.setCsbase_sndptr (v : Half) : (s.setCsbase v).sndptr = s.sndptr := rfl
@[simp] theorem State.setCsbase_sndlen (v : Half) : (s.setCsbase v).sndlen = s.sndlen := rfl
@[simp] theorem State.setCsbase_snd (v : Half) : (s.setCsbase v).snd = s.snd := rfl
@[simp] theorem State.setCsbase_tcp (v : Half) : (s.setCsbase v).tcp = s.tcp := rfl
@[simp] theorem State.setCsbase_udp (v : Half) : (s.setCsbase v).udp = s.udp := rfl
@[simp] theorem State.setCsbase_csbase (v : Half) : (s.setCsbase v).csbase = v := rfl
@[simp] theorem State.setCsbase_cslen (v : Half) : (s.setCsbase v).cslen = s.cslen := rfl
@[simp] theorem State.setCsbase_csres (v : Half) : (s.setCsbase v).csres = s.csres := rfl
@[simp] theorem State.setCsbase_acc32 (v : Half) : (s.setCsbase v).acc32 = s.acc32 := rfl
@[simp] theorem State.setCsbase_op16 (v : Half) : (s.setCsbase v).op16 = s.op16 := rfl
@[simp] theorem State.setCsbase_scan (v : Half) : (s.setCsbase v).scan = s.scan := rfl
@[simp] theorem State.setCsbase_ipid (v : Half) : (s.setCsbase v).ipid = s.ipid := rfl
@[simp] theorem State.setCsbase_faultBit (v : Half) : (s.setCsbase v).faultBit = s.faultBit := rfl
@[simp] theorem State.setCsbase_fcode (v : Half) : (s.setCsbase v).fcode = s.fcode := rfl
@[simp] theorem State.setCsbase_script (v : Half) : (s.setCsbase v).script = s.script := rfl
@[simp] theorem State.setCsbase_rdata (v : Half) : (s.setCsbase v).rdata = s.rdata := rfl
@[simp] theorem State.setCsbase_answers (v : Half) : (s.setCsbase v).answers = s.answers := rfl
@[simp] theorem State.setCsbase_requests (v : Half) : (s.setCsbase v).requests = s.requests := rfl
@[simp] theorem State.setCsbase_draws (v : Half) : (s.setCsbase v).draws = s.draws := rfl
@[simp] theorem State.setCsbase_bufDraw (v : Half) : (s.setCsbase v).bufDraw = s.bufDraw := rfl
@[simp] theorem State.setCsbase_sndDraw (v : Half) : (s.setCsbase v).sndDraw = s.sndDraw := rfl

/-! ### setCslen -/

@[simp] theorem State.setCslen_cfg (v : Half) : (s.setCslen v).cfg = s.cfg := rfl
@[simp] theorem State.setCslen_buf (v : Half) : (s.setCslen v).buf = s.buf := rfl
@[simp] theorem State.setCslen_length (v : Half) : (s.setCslen v).length = s.length := rfl
@[simp] theorem State.setCslen_appdata (v : Half) : (s.setCslen v).appdata = s.appdata := rfl
@[simp] theorem State.setCslen_sndptr (v : Half) : (s.setCslen v).sndptr = s.sndptr := rfl
@[simp] theorem State.setCslen_sndlen (v : Half) : (s.setCslen v).sndlen = s.sndlen := rfl
@[simp] theorem State.setCslen_snd (v : Half) : (s.setCslen v).snd = s.snd := rfl
@[simp] theorem State.setCslen_tcp (v : Half) : (s.setCslen v).tcp = s.tcp := rfl
@[simp] theorem State.setCslen_udp (v : Half) : (s.setCslen v).udp = s.udp := rfl
@[simp] theorem State.setCslen_csbase (v : Half) : (s.setCslen v).csbase = s.csbase := rfl
@[simp] theorem State.setCslen_cslen (v : Half) : (s.setCslen v).cslen = v := rfl
@[simp] theorem State.setCslen_csres (v : Half) : (s.setCslen v).csres = s.csres := rfl
@[simp] theorem State.setCslen_acc32 (v : Half) : (s.setCslen v).acc32 = s.acc32 := rfl
@[simp] theorem State.setCslen_op16 (v : Half) : (s.setCslen v).op16 = s.op16 := rfl
@[simp] theorem State.setCslen_scan (v : Half) : (s.setCslen v).scan = s.scan := rfl
@[simp] theorem State.setCslen_ipid (v : Half) : (s.setCslen v).ipid = s.ipid := rfl
@[simp] theorem State.setCslen_faultBit (v : Half) : (s.setCslen v).faultBit = s.faultBit := rfl
@[simp] theorem State.setCslen_fcode (v : Half) : (s.setCslen v).fcode = s.fcode := rfl
@[simp] theorem State.setCslen_script (v : Half) : (s.setCslen v).script = s.script := rfl
@[simp] theorem State.setCslen_rdata (v : Half) : (s.setCslen v).rdata = s.rdata := rfl
@[simp] theorem State.setCslen_answers (v : Half) : (s.setCslen v).answers = s.answers := rfl
@[simp] theorem State.setCslen_requests (v : Half) : (s.setCslen v).requests = s.requests := rfl
@[simp] theorem State.setCslen_draws (v : Half) : (s.setCslen v).draws = s.draws := rfl
@[simp] theorem State.setCslen_bufDraw (v : Half) : (s.setCslen v).bufDraw = s.bufDraw := rfl
@[simp] theorem State.setCslen_sndDraw (v : Half) : (s.setCslen v).sndDraw = s.sndDraw := rfl

/-! ### setCsres -/

@[simp] theorem State.setCsres_cfg (v : Half) : (s.setCsres v).cfg = s.cfg := rfl
@[simp] theorem State.setCsres_buf (v : Half) : (s.setCsres v).buf = s.buf := rfl
@[simp] theorem State.setCsres_length (v : Half) : (s.setCsres v).length = s.length := rfl
@[simp] theorem State.setCsres_appdata (v : Half) : (s.setCsres v).appdata = s.appdata := rfl
@[simp] theorem State.setCsres_sndptr (v : Half) : (s.setCsres v).sndptr = s.sndptr := rfl
@[simp] theorem State.setCsres_sndlen (v : Half) : (s.setCsres v).sndlen = s.sndlen := rfl
@[simp] theorem State.setCsres_snd (v : Half) : (s.setCsres v).snd = s.snd := rfl
@[simp] theorem State.setCsres_tcp (v : Half) : (s.setCsres v).tcp = s.tcp := rfl
@[simp] theorem State.setCsres_udp (v : Half) : (s.setCsres v).udp = s.udp := rfl
@[simp] theorem State.setCsres_csbase (v : Half) : (s.setCsres v).csbase = s.csbase := rfl
@[simp] theorem State.setCsres_cslen (v : Half) : (s.setCsres v).cslen = s.cslen := rfl
@[simp] theorem State.setCsres_csres (v : Half) : (s.setCsres v).csres = v := rfl
@[simp] theorem State.setCsres_acc32 (v : Half) : (s.setCsres v).acc32 = s.acc32 := rfl
@[simp] theorem State.setCsres_op16 (v : Half) : (s.setCsres v).op16 = s.op16 := rfl
@[simp] theorem State.setCsres_scan (v : Half) : (s.setCsres v).scan = s.scan := rfl
@[simp] theorem State.setCsres_ipid (v : Half) : (s.setCsres v).ipid = s.ipid := rfl
@[simp] theorem State.setCsres_faultBit (v : Half) : (s.setCsres v).faultBit = s.faultBit := rfl
@[simp] theorem State.setCsres_fcode (v : Half) : (s.setCsres v).fcode = s.fcode := rfl
@[simp] theorem State.setCsres_script (v : Half) : (s.setCsres v).script = s.script := rfl
@[simp] theorem State.setCsres_rdata (v : Half) : (s.setCsres v).rdata = s.rdata := rfl
@[simp] theorem State.setCsres_answers (v : Half) : (s.setCsres v).answers = s.answers := rfl
@[simp] theorem State.setCsres_requests (v : Half) : (s.setCsres v).requests = s.requests := rfl
@[simp] theorem State.setCsres_draws (v : Half) : (s.setCsres v).draws = s.draws := rfl
@[simp] theorem State.setCsres_bufDraw (v : Half) : (s.setCsres v).bufDraw = s.bufDraw := rfl
@[simp] theorem State.setCsres_sndDraw (v : Half) : (s.setCsres v).sndDraw = s.sndDraw := rfl

/-! ### setAcc32 -/

@[simp] theorem State.setAcc32_cfg (v : Word) : (s.setAcc32 v).cfg = s.cfg := rfl
@[simp] theorem State.setAcc32_buf (v : Word) : (s.setAcc32 v).buf = s.buf := rfl
@[simp] theorem State.setAcc32_length (v : Word) : (s.setAcc32 v).length = s.length := rfl
@[simp] theorem State.setAcc32_appdata (v : Word) : (s.setAcc32 v).appdata = s.appdata := rfl
@[simp] theorem State.setAcc32_sndptr (v : Word) : (s.setAcc32 v).sndptr = s.sndptr := rfl
@[simp] theorem State.setAcc32_sndlen (v : Word) : (s.setAcc32 v).sndlen = s.sndlen := rfl
@[simp] theorem State.setAcc32_snd (v : Word) : (s.setAcc32 v).snd = s.snd := rfl
@[simp] theorem State.setAcc32_tcp (v : Word) : (s.setAcc32 v).tcp = s.tcp := rfl
@[simp] theorem State.setAcc32_udp (v : Word) : (s.setAcc32 v).udp = s.udp := rfl
@[simp] theorem State.setAcc32_csbase (v : Word) : (s.setAcc32 v).csbase = s.csbase := rfl
@[simp] theorem State.setAcc32_cslen (v : Word) : (s.setAcc32 v).cslen = s.cslen := rfl
@[simp] theorem State.setAcc32_csres (v : Word) : (s.setAcc32 v).csres = s.csres := rfl
@[simp] theorem State.setAcc32_acc32 (v : Word) : (s.setAcc32 v).acc32 = v := rfl
@[simp] theorem State.setAcc32_op16 (v : Word) : (s.setAcc32 v).op16 = s.op16 := rfl
@[simp] theorem State.setAcc32_scan (v : Word) : (s.setAcc32 v).scan = s.scan := rfl
@[simp] theorem State.setAcc32_ipid (v : Word) : (s.setAcc32 v).ipid = s.ipid := rfl
@[simp] theorem State.setAcc32_faultBit (v : Word) : (s.setAcc32 v).faultBit = s.faultBit := rfl
@[simp] theorem State.setAcc32_fcode (v : Word) : (s.setAcc32 v).fcode = s.fcode := rfl
@[simp] theorem State.setAcc32_script (v : Word) : (s.setAcc32 v).script = s.script := rfl
@[simp] theorem State.setAcc32_rdata (v : Word) : (s.setAcc32 v).rdata = s.rdata := rfl
@[simp] theorem State.setAcc32_answers (v : Word) : (s.setAcc32 v).answers = s.answers := rfl
@[simp] theorem State.setAcc32_requests (v : Word) : (s.setAcc32 v).requests = s.requests := rfl
@[simp] theorem State.setAcc32_draws (v : Word) : (s.setAcc32 v).draws = s.draws := rfl
@[simp] theorem State.setAcc32_bufDraw (v : Word) : (s.setAcc32 v).bufDraw = s.bufDraw := rfl
@[simp] theorem State.setAcc32_sndDraw (v : Word) : (s.setAcc32 v).sndDraw = s.sndDraw := rfl

/-! ### setOp16 -/

@[simp] theorem State.setOp16_cfg (v : Half) : (s.setOp16 v).cfg = s.cfg := rfl
@[simp] theorem State.setOp16_buf (v : Half) : (s.setOp16 v).buf = s.buf := rfl
@[simp] theorem State.setOp16_length (v : Half) : (s.setOp16 v).length = s.length := rfl
@[simp] theorem State.setOp16_appdata (v : Half) : (s.setOp16 v).appdata = s.appdata := rfl
@[simp] theorem State.setOp16_sndptr (v : Half) : (s.setOp16 v).sndptr = s.sndptr := rfl
@[simp] theorem State.setOp16_sndlen (v : Half) : (s.setOp16 v).sndlen = s.sndlen := rfl
@[simp] theorem State.setOp16_snd (v : Half) : (s.setOp16 v).snd = s.snd := rfl
@[simp] theorem State.setOp16_tcp (v : Half) : (s.setOp16 v).tcp = s.tcp := rfl
@[simp] theorem State.setOp16_udp (v : Half) : (s.setOp16 v).udp = s.udp := rfl
@[simp] theorem State.setOp16_csbase (v : Half) : (s.setOp16 v).csbase = s.csbase := rfl
@[simp] theorem State.setOp16_cslen (v : Half) : (s.setOp16 v).cslen = s.cslen := rfl
@[simp] theorem State.setOp16_csres (v : Half) : (s.setOp16 v).csres = s.csres := rfl
@[simp] theorem State.setOp16_acc32 (v : Half) : (s.setOp16 v).acc32 = s.acc32 := rfl
@[simp] theorem State.setOp16_op16 (v : Half) : (s.setOp16 v).op16 = v := rfl
@[simp] theorem State.setOp16_scan (v : Half) : (s.setOp16 v).scan = s.scan := rfl
@[simp] theorem State.setOp16_ipid (v : Half) : (s.setOp16 v).ipid = s.ipid := rfl
@[simp] theorem State.setOp16_faultBit (v : Half) : (s.setOp16 v).faultBit = s.faultBit := rfl
@[simp] theorem State.setOp16_fcode (v : Half) : (s.setOp16 v).fcode = s.fcode := rfl
@[simp] theorem State.setOp16_script (v : Half) : (s.setOp16 v).script = s.script := rfl
@[simp] theorem State.setOp16_rdata (v : Half) : (s.setOp16 v).rdata = s.rdata := rfl
@[simp] theorem State.setOp16_answers (v : Half) : (s.setOp16 v).answers = s.answers := rfl
@[simp] theorem State.setOp16_requests (v : Half) : (s.setOp16 v).requests = s.requests := rfl
@[simp] theorem State.setOp16_draws (v : Half) : (s.setOp16 v).draws = s.draws := rfl
@[simp] theorem State.setOp16_bufDraw (v : Half) : (s.setOp16 v).bufDraw = s.bufDraw := rfl
@[simp] theorem State.setOp16_sndDraw (v : Half) : (s.setOp16 v).sndDraw = s.sndDraw := rfl

/-! ### setScan -/

@[simp] theorem State.setScan_cfg (v : BitVec 10) : (s.setScan v).cfg = s.cfg := rfl
@[simp] theorem State.setScan_buf (v : BitVec 10) : (s.setScan v).buf = s.buf := rfl
@[simp] theorem State.setScan_length (v : BitVec 10) : (s.setScan v).length = s.length := rfl
@[simp] theorem State.setScan_appdata (v : BitVec 10) : (s.setScan v).appdata = s.appdata := rfl
@[simp] theorem State.setScan_sndptr (v : BitVec 10) : (s.setScan v).sndptr = s.sndptr := rfl
@[simp] theorem State.setScan_sndlen (v : BitVec 10) : (s.setScan v).sndlen = s.sndlen := rfl
@[simp] theorem State.setScan_snd (v : BitVec 10) : (s.setScan v).snd = s.snd := rfl
@[simp] theorem State.setScan_tcp (v : BitVec 10) : (s.setScan v).tcp = s.tcp := rfl
@[simp] theorem State.setScan_udp (v : BitVec 10) : (s.setScan v).udp = s.udp := rfl
@[simp] theorem State.setScan_csbase (v : BitVec 10) : (s.setScan v).csbase = s.csbase := rfl
@[simp] theorem State.setScan_cslen (v : BitVec 10) : (s.setScan v).cslen = s.cslen := rfl
@[simp] theorem State.setScan_csres (v : BitVec 10) : (s.setScan v).csres = s.csres := rfl
@[simp] theorem State.setScan_acc32 (v : BitVec 10) : (s.setScan v).acc32 = s.acc32 := rfl
@[simp] theorem State.setScan_op16 (v : BitVec 10) : (s.setScan v).op16 = s.op16 := rfl
@[simp] theorem State.setScan_scan (v : BitVec 10) : (s.setScan v).scan = v := rfl
@[simp] theorem State.setScan_ipid (v : BitVec 10) : (s.setScan v).ipid = s.ipid := rfl
@[simp] theorem State.setScan_faultBit (v : BitVec 10) : (s.setScan v).faultBit = s.faultBit := rfl
@[simp] theorem State.setScan_fcode (v : BitVec 10) : (s.setScan v).fcode = s.fcode := rfl
@[simp] theorem State.setScan_script (v : BitVec 10) : (s.setScan v).script = s.script := rfl
@[simp] theorem State.setScan_rdata (v : BitVec 10) : (s.setScan v).rdata = s.rdata := rfl
@[simp] theorem State.setScan_answers (v : BitVec 10) : (s.setScan v).answers = s.answers := rfl
@[simp] theorem State.setScan_requests (v : BitVec 10) : (s.setScan v).requests = s.requests := rfl
@[simp] theorem State.setScan_draws (v : BitVec 10) : (s.setScan v).draws = s.draws := rfl
@[simp] theorem State.setScan_bufDraw (v : BitVec 10) : (s.setScan v).bufDraw = s.bufDraw := rfl
@[simp] theorem State.setScan_sndDraw (v : BitVec 10) : (s.setScan v).sndDraw = s.sndDraw := rfl

/-! ### setIpid -/

@[simp] theorem State.setIpid_cfg (v : Half) : (s.setIpid v).cfg = s.cfg := rfl
@[simp] theorem State.setIpid_buf (v : Half) : (s.setIpid v).buf = s.buf := rfl
@[simp] theorem State.setIpid_length (v : Half) : (s.setIpid v).length = s.length := rfl
@[simp] theorem State.setIpid_appdata (v : Half) : (s.setIpid v).appdata = s.appdata := rfl
@[simp] theorem State.setIpid_sndptr (v : Half) : (s.setIpid v).sndptr = s.sndptr := rfl
@[simp] theorem State.setIpid_sndlen (v : Half) : (s.setIpid v).sndlen = s.sndlen := rfl
@[simp] theorem State.setIpid_snd (v : Half) : (s.setIpid v).snd = s.snd := rfl
@[simp] theorem State.setIpid_tcp (v : Half) : (s.setIpid v).tcp = s.tcp := rfl
@[simp] theorem State.setIpid_udp (v : Half) : (s.setIpid v).udp = s.udp := rfl
@[simp] theorem State.setIpid_csbase (v : Half) : (s.setIpid v).csbase = s.csbase := rfl
@[simp] theorem State.setIpid_cslen (v : Half) : (s.setIpid v).cslen = s.cslen := rfl
@[simp] theorem State.setIpid_csres (v : Half) : (s.setIpid v).csres = s.csres := rfl
@[simp] theorem State.setIpid_acc32 (v : Half) : (s.setIpid v).acc32 = s.acc32 := rfl
@[simp] theorem State.setIpid_op16 (v : Half) : (s.setIpid v).op16 = s.op16 := rfl
@[simp] theorem State.setIpid_scan (v : Half) : (s.setIpid v).scan = s.scan := rfl
@[simp] theorem State.setIpid_ipid (v : Half) : (s.setIpid v).ipid = v := rfl
@[simp] theorem State.setIpid_faultBit (v : Half) : (s.setIpid v).faultBit = s.faultBit := rfl
@[simp] theorem State.setIpid_fcode (v : Half) : (s.setIpid v).fcode = s.fcode := rfl
@[simp] theorem State.setIpid_script (v : Half) : (s.setIpid v).script = s.script := rfl
@[simp] theorem State.setIpid_rdata (v : Half) : (s.setIpid v).rdata = s.rdata := rfl
@[simp] theorem State.setIpid_answers (v : Half) : (s.setIpid v).answers = s.answers := rfl
@[simp] theorem State.setIpid_requests (v : Half) : (s.setIpid v).requests = s.requests := rfl
@[simp] theorem State.setIpid_draws (v : Half) : (s.setIpid v).draws = s.draws := rfl
@[simp] theorem State.setIpid_bufDraw (v : Half) : (s.setIpid v).bufDraw = s.bufDraw := rfl
@[simp] theorem State.setIpid_sndDraw (v : Half) : (s.setIpid v).sndDraw = s.sndDraw := rfl

/-! ### setStatus -/

@[simp] theorem State.setStatus_cfg (f : Bool) (v : Byte) : (s.setStatus f v).cfg = s.cfg := rfl
@[simp] theorem State.setStatus_buf (f : Bool) (v : Byte) : (s.setStatus f v).buf = s.buf := rfl
@[simp] theorem State.setStatus_length (f : Bool) (v : Byte) : (s.setStatus f v).length = s.length := rfl
@[simp] theorem State.setStatus_appdata (f : Bool) (v : Byte) : (s.setStatus f v).appdata = s.appdata := rfl
@[simp] theorem State.setStatus_sndptr (f : Bool) (v : Byte) : (s.setStatus f v).sndptr = s.sndptr := rfl
@[simp] theorem State.setStatus_sndlen (f : Bool) (v : Byte) : (s.setStatus f v).sndlen = s.sndlen := rfl
@[simp] theorem State.setStatus_snd (f : Bool) (v : Byte) : (s.setStatus f v).snd = s.snd := rfl
@[simp] theorem State.setStatus_tcp (f : Bool) (v : Byte) : (s.setStatus f v).tcp = s.tcp := rfl
@[simp] theorem State.setStatus_udp (f : Bool) (v : Byte) : (s.setStatus f v).udp = s.udp := rfl
@[simp] theorem State.setStatus_csbase (f : Bool) (v : Byte) : (s.setStatus f v).csbase = s.csbase := rfl
@[simp] theorem State.setStatus_cslen (f : Bool) (v : Byte) : (s.setStatus f v).cslen = s.cslen := rfl
@[simp] theorem State.setStatus_csres (f : Bool) (v : Byte) : (s.setStatus f v).csres = s.csres := rfl
@[simp] theorem State.setStatus_acc32 (f : Bool) (v : Byte) : (s.setStatus f v).acc32 = s.acc32 := rfl
@[simp] theorem State.setStatus_op16 (f : Bool) (v : Byte) : (s.setStatus f v).op16 = s.op16 := rfl
@[simp] theorem State.setStatus_scan (f : Bool) (v : Byte) : (s.setStatus f v).scan = s.scan := rfl
@[simp] theorem State.setStatus_ipid (f : Bool) (v : Byte) : (s.setStatus f v).ipid = s.ipid := rfl
@[simp] theorem State.setStatus_faultBit (f : Bool) (v : Byte) : (s.setStatus f v).faultBit = f := rfl
@[simp] theorem State.setStatus_fcode (f : Bool) (v : Byte) : (s.setStatus f v).fcode = v := rfl
@[simp] theorem State.setStatus_script (f : Bool) (v : Byte) : (s.setStatus f v).script = s.script := rfl
@[simp] theorem State.setStatus_rdata (f : Bool) (v : Byte) : (s.setStatus f v).rdata = s.rdata := rfl
@[simp] theorem State.setStatus_answers (f : Bool) (v : Byte) : (s.setStatus f v).answers = s.answers := rfl
@[simp] theorem State.setStatus_requests (f : Bool) (v : Byte) : (s.setStatus f v).requests = s.requests := rfl
@[simp] theorem State.setStatus_draws (f : Bool) (v : Byte) : (s.setStatus f v).draws = s.draws := rfl
@[simp] theorem State.setStatus_bufDraw (f : Bool) (v : Byte) : (s.setStatus f v).bufDraw = s.bufDraw := rfl
@[simp] theorem State.setStatus_sndDraw (f : Bool) (v : Byte) : (s.setStatus f v).sndDraw = s.sndDraw := rfl

/-! ### setScript -/

@[simp] theorem State.setScript_cfg (v : List HostOp) : (s.setScript v).cfg = s.cfg := rfl
@[simp] theorem State.setScript_buf (v : List HostOp) : (s.setScript v).buf = s.buf := rfl
@[simp] theorem State.setScript_length (v : List HostOp) : (s.setScript v).length = s.length := rfl
@[simp] theorem State.setScript_appdata (v : List HostOp) : (s.setScript v).appdata = s.appdata := rfl
@[simp] theorem State.setScript_sndptr (v : List HostOp) : (s.setScript v).sndptr = s.sndptr := rfl
@[simp] theorem State.setScript_sndlen (v : List HostOp) : (s.setScript v).sndlen = s.sndlen := rfl
@[simp] theorem State.setScript_snd (v : List HostOp) : (s.setScript v).snd = s.snd := rfl
@[simp] theorem State.setScript_tcp (v : List HostOp) : (s.setScript v).tcp = s.tcp := rfl
@[simp] theorem State.setScript_udp (v : List HostOp) : (s.setScript v).udp = s.udp := rfl
@[simp] theorem State.setScript_csbase (v : List HostOp) : (s.setScript v).csbase = s.csbase := rfl
@[simp] theorem State.setScript_cslen (v : List HostOp) : (s.setScript v).cslen = s.cslen := rfl
@[simp] theorem State.setScript_csres (v : List HostOp) : (s.setScript v).csres = s.csres := rfl
@[simp] theorem State.setScript_acc32 (v : List HostOp) : (s.setScript v).acc32 = s.acc32 := rfl
@[simp] theorem State.setScript_op16 (v : List HostOp) : (s.setScript v).op16 = s.op16 := rfl
@[simp] theorem State.setScript_scan (v : List HostOp) : (s.setScript v).scan = s.scan := rfl
@[simp] theorem State.setScript_ipid (v : List HostOp) : (s.setScript v).ipid = s.ipid := rfl
@[simp] theorem State.setScript_faultBit (v : List HostOp) : (s.setScript v).faultBit = s.faultBit := rfl
@[simp] theorem State.setScript_fcode (v : List HostOp) : (s.setScript v).fcode = s.fcode := rfl
@[simp] theorem State.setScript_script (v : List HostOp) : (s.setScript v).script = v := rfl
@[simp] theorem State.setScript_rdata (v : List HostOp) : (s.setScript v).rdata = s.rdata := rfl
@[simp] theorem State.setScript_answers (v : List HostOp) : (s.setScript v).answers = s.answers := rfl
@[simp] theorem State.setScript_requests (v : List HostOp) : (s.setScript v).requests = s.requests := rfl
@[simp] theorem State.setScript_draws (v : List HostOp) : (s.setScript v).draws = s.draws := rfl
@[simp] theorem State.setScript_bufDraw (v : List HostOp) : (s.setScript v).bufDraw = s.bufDraw := rfl
@[simp] theorem State.setScript_sndDraw (v : List HostOp) : (s.setScript v).sndDraw = s.sndDraw := rfl

/-! ### setRdata -/

@[simp] theorem State.setRdata_cfg (v : Word) : (s.setRdata v).cfg = s.cfg := rfl
@[simp] theorem State.setRdata_buf (v : Word) : (s.setRdata v).buf = s.buf := rfl
@[simp] theorem State.setRdata_length (v : Word) : (s.setRdata v).length = s.length := rfl
@[simp] theorem State.setRdata_appdata (v : Word) : (s.setRdata v).appdata = s.appdata := rfl
@[simp] theorem State.setRdata_sndptr (v : Word) : (s.setRdata v).sndptr = s.sndptr := rfl
@[simp] theorem State.setRdata_sndlen (v : Word) : (s.setRdata v).sndlen = s.sndlen := rfl
@[simp] theorem State.setRdata_snd (v : Word) : (s.setRdata v).snd = s.snd := rfl
@[simp] theorem State.setRdata_tcp (v : Word) : (s.setRdata v).tcp = s.tcp := rfl
@[simp] theorem State.setRdata_udp (v : Word) : (s.setRdata v).udp = s.udp := rfl
@[simp] theorem State.setRdata_csbase (v : Word) : (s.setRdata v).csbase = s.csbase := rfl
@[simp] theorem State.setRdata_cslen (v : Word) : (s.setRdata v).cslen = s.cslen := rfl
@[simp] theorem State.setRdata_csres (v : Word) : (s.setRdata v).csres = s.csres := rfl
@[simp] theorem State.setRdata_acc32 (v : Word) : (s.setRdata v).acc32 = s.acc32 := rfl
@[simp] theorem State.setRdata_op16 (v : Word) : (s.setRdata v).op16 = s.op16 := rfl
@[simp] theorem State.setRdata_scan (v : Word) : (s.setRdata v).scan = s.scan := rfl
@[simp] theorem State.setRdata_ipid (v : Word) : (s.setRdata v).ipid = s.ipid := rfl
@[simp] theorem State.setRdata_faultBit (v : Word) : (s.setRdata v).faultBit = s.faultBit := rfl
@[simp] theorem State.setRdata_fcode (v : Word) : (s.setRdata v).fcode = s.fcode := rfl
@[simp] theorem State.setRdata_script (v : Word) : (s.setRdata v).script = s.script := rfl
@[simp] theorem State.setRdata_rdata (v : Word) : (s.setRdata v).rdata = v := rfl
@[simp] theorem State.setRdata_answers (v : Word) : (s.setRdata v).answers = s.answers := rfl
@[simp] theorem State.setRdata_requests (v : Word) : (s.setRdata v).requests = s.requests := rfl
@[simp] theorem State.setRdata_draws (v : Word) : (s.setRdata v).draws = s.draws := rfl
@[simp] theorem State.setRdata_bufDraw (v : Word) : (s.setRdata v).bufDraw = s.bufDraw := rfl
@[simp] theorem State.setRdata_sndDraw (v : Word) : (s.setRdata v).sndDraw = s.sndDraw := rfl

/-! ### setTcp -/

@[simp] theorem State.setTcp_cfg (k : Nat) (v : TcpSlot) : (s.setTcp k v).cfg = s.cfg := rfl
@[simp] theorem State.setTcp_buf (k : Nat) (v : TcpSlot) : (s.setTcp k v).buf = s.buf := rfl
@[simp] theorem State.setTcp_length (k : Nat) (v : TcpSlot) : (s.setTcp k v).length = s.length := rfl
@[simp] theorem State.setTcp_appdata (k : Nat) (v : TcpSlot) : (s.setTcp k v).appdata = s.appdata := rfl
@[simp] theorem State.setTcp_sndptr (k : Nat) (v : TcpSlot) : (s.setTcp k v).sndptr = s.sndptr := rfl
@[simp] theorem State.setTcp_sndlen (k : Nat) (v : TcpSlot) : (s.setTcp k v).sndlen = s.sndlen := rfl
@[simp] theorem State.setTcp_snd (k : Nat) (v : TcpSlot) : (s.setTcp k v).snd = s.snd := rfl
@[simp] theorem State.setTcp_tcp (k : Nat) (v : TcpSlot) : (s.setTcp k v).tcp = s.tcp.set k v := rfl
@[simp] theorem State.setTcp_udp (k : Nat) (v : TcpSlot) : (s.setTcp k v).udp = s.udp := rfl
@[simp] theorem State.setTcp_csbase (k : Nat) (v : TcpSlot) : (s.setTcp k v).csbase = s.csbase := rfl
@[simp] theorem State.setTcp_cslen (k : Nat) (v : TcpSlot) : (s.setTcp k v).cslen = s.cslen := rfl
@[simp] theorem State.setTcp_csres (k : Nat) (v : TcpSlot) : (s.setTcp k v).csres = s.csres := rfl
@[simp] theorem State.setTcp_acc32 (k : Nat) (v : TcpSlot) : (s.setTcp k v).acc32 = s.acc32 := rfl
@[simp] theorem State.setTcp_op16 (k : Nat) (v : TcpSlot) : (s.setTcp k v).op16 = s.op16 := rfl
@[simp] theorem State.setTcp_scan (k : Nat) (v : TcpSlot) : (s.setTcp k v).scan = s.scan := rfl
@[simp] theorem State.setTcp_ipid (k : Nat) (v : TcpSlot) : (s.setTcp k v).ipid = s.ipid := rfl
@[simp] theorem State.setTcp_faultBit (k : Nat) (v : TcpSlot) : (s.setTcp k v).faultBit = s.faultBit := rfl
@[simp] theorem State.setTcp_fcode (k : Nat) (v : TcpSlot) : (s.setTcp k v).fcode = s.fcode := rfl
@[simp] theorem State.setTcp_script (k : Nat) (v : TcpSlot) : (s.setTcp k v).script = s.script := rfl
@[simp] theorem State.setTcp_rdata (k : Nat) (v : TcpSlot) : (s.setTcp k v).rdata = s.rdata := rfl
@[simp] theorem State.setTcp_answers (k : Nat) (v : TcpSlot) : (s.setTcp k v).answers = s.answers := rfl
@[simp] theorem State.setTcp_requests (k : Nat) (v : TcpSlot) : (s.setTcp k v).requests = s.requests := rfl
@[simp] theorem State.setTcp_draws (k : Nat) (v : TcpSlot) : (s.setTcp k v).draws = s.draws := rfl
@[simp] theorem State.setTcp_bufDraw (k : Nat) (v : TcpSlot) : (s.setTcp k v).bufDraw = s.bufDraw := rfl
@[simp] theorem State.setTcp_sndDraw (k : Nat) (v : TcpSlot) : (s.setTcp k v).sndDraw = s.sndDraw := rfl

/-! ### setUdp -/

@[simp] theorem State.setUdp_cfg (k : Nat) (v : UdpSlot) : (s.setUdp k v).cfg = s.cfg := rfl
@[simp] theorem State.setUdp_buf (k : Nat) (v : UdpSlot) : (s.setUdp k v).buf = s.buf := rfl
@[simp] theorem State.setUdp_length (k : Nat) (v : UdpSlot) : (s.setUdp k v).length = s.length := rfl
@[simp] theorem State.setUdp_appdata (k : Nat) (v : UdpSlot) : (s.setUdp k v).appdata = s.appdata := rfl
@[simp] theorem State.setUdp_sndptr (k : Nat) (v : UdpSlot) : (s.setUdp k v).sndptr = s.sndptr := rfl
@[simp] theorem State.setUdp_sndlen (k : Nat) (v : UdpSlot) : (s.setUdp k v).sndlen = s.sndlen := rfl
@[simp] theorem State.setUdp_snd (k : Nat) (v : UdpSlot) : (s.setUdp k v).snd = s.snd := rfl
@[simp] theorem State.setUdp_tcp (k : Nat) (v : UdpSlot) : (s.setUdp k v).tcp = s.tcp := rfl
@[simp] theorem State.setUdp_udp (k : Nat) (v : UdpSlot) : (s.setUdp k v).udp = s.udp.set k v := rfl
@[simp] theorem State.setUdp_csbase (k : Nat) (v : UdpSlot) : (s.setUdp k v).csbase = s.csbase := rfl
@[simp] theorem State.setUdp_cslen (k : Nat) (v : UdpSlot) : (s.setUdp k v).cslen = s.cslen := rfl
@[simp] theorem State.setUdp_csres (k : Nat) (v : UdpSlot) : (s.setUdp k v).csres = s.csres := rfl
@[simp] theorem State.setUdp_acc32 (k : Nat) (v : UdpSlot) : (s.setUdp k v).acc32 = s.acc32 := rfl
@[simp] theorem State.setUdp_op16 (k : Nat) (v : UdpSlot) : (s.setUdp k v).op16 = s.op16 := rfl
@[simp] theorem State.setUdp_scan (k : Nat) (v : UdpSlot) : (s.setUdp k v).scan = s.scan := rfl
@[simp] theorem State.setUdp_ipid (k : Nat) (v : UdpSlot) : (s.setUdp k v).ipid = s.ipid := rfl
@[simp] theorem State.setUdp_faultBit (k : Nat) (v : UdpSlot) : (s.setUdp k v).faultBit = s.faultBit := rfl
@[simp] theorem State.setUdp_fcode (k : Nat) (v : UdpSlot) : (s.setUdp k v).fcode = s.fcode := rfl
@[simp] theorem State.setUdp_script (k : Nat) (v : UdpSlot) : (s.setUdp k v).script = s.script := rfl
@[simp] theorem State.setUdp_rdata (k : Nat) (v : UdpSlot) : (s.setUdp k v).rdata = s.rdata := rfl
@[simp] theorem State.setUdp_answers (k : Nat) (v : UdpSlot) : (s.setUdp k v).answers = s.answers := rfl
@[simp] theorem State.setUdp_requests (k : Nat) (v : UdpSlot) : (s.setUdp k v).requests = s.requests := rfl
@[simp] theorem State.setUdp_draws (k : Nat) (v : UdpSlot) : (s.setUdp k v).draws = s.draws := rfl
@[simp] theorem State.setUdp_bufDraw (k : Nat) (v : UdpSlot) : (s.setUdp k v).bufDraw = s.bufDraw := rfl
@[simp] theorem State.setUdp_sndDraw (k : Nat) (v : UdpSlot) : (s.setUdp k v).sndDraw = s.sndDraw := rfl

/-! ### Entering a contract fault -/

@[simp] theorem raise_state (c : ContractFault) : (raise c s).state = s.setStatus true (faultCode c) := rfl

@[simp] theorem Run.on_state : (Run.on s).state = s := rfl

@[simp] theorem Run.raised_state : (Run.raised s).state = s := rfl

@[simp] theorem Run.on_andThen (f : State → Run) : (Run.on s).andThen f = f s := rfl

@[simp] theorem Run.raised_andThen (f : State → Run) : (Run.raised s).andThen f = Run.raised s := rfl

@[simp] theorem raise_andThen (c : ContractFault) (f : State → Run) : (raise c s).andThen f = raise c s := rfl

end Sys2Proof.Machine
end

