-- ==== Sys2Proof/Laws/Memory.lean ====
section
/-! SUPPORT. Memory: a write then a read, the canonical form, and the bytes of `buf` and `snd` after each update. -/

namespace Sys2Proof.Machine

theorem memRead_memWrite (m : Memory) (a x : Nat) (v : Byte) :
    memRead (memWrite m a v) x = if x = a then some v else memRead m x := by
  induction m with
  | nil => simp [memWrite, memRead]
  | cons c rest ih =>
    obtain ⟨b, w⟩ := c
    simp only [memWrite]
    split_ifs <;> simp_all [memRead]

@[simp] theorem memRead_memWrite_same (m : Memory) (a : Nat) (v : Byte) : memRead (memWrite m a v) a = some v := by
  simp [memRead_memWrite]

theorem memRead_memWrite_other (m : Memory) {a x : Nat} (v : Byte) (h : x ≠ a) :
    memRead (memWrite m a v) x = memRead m x := by
  simp [memRead_memWrite, h]

/-- A write adds no cell but the one written. -/
theorem mem_memWrite {m : Memory} {a : Nat} {v : Byte} {c : Host.Cell} (h : c ∈ memWrite m a v) :
    c = (a, v) ∨ c ∈ m := by
  induction m with
  | nil => simpa [memWrite] using h
  | cons d rest ih =>
    obtain ⟨b, w⟩ := d
    simp only [memWrite] at h
    split_ifs at h <;> simp only [List.mem_cons] at h ⊢
    · exact h
    · exact h.imp_right Or.inr
    · rcases h with h | h
      · exact .inr (.inl h)
      · exact (ih h).imp_right Or.inr

/-- A write keeps the canonical form. -/
theorem memWrite_wf {m : Memory} (h : Memory.wf m) (a : Nat) (v : Byte) : Memory.wf (memWrite m a v) := by
  induction m with
  | nil => simp [memWrite, Memory.wf]
  | cons d rest ih =>
    obtain ⟨b, w⟩ := d
    obtain ⟨hb, hr⟩ := List.pairwise_cons.1 h
    simp only [memWrite]
    split_ifs with h1 h2
    · refine List.pairwise_cons.2 ⟨fun c hc => ?_, h⟩
      rcases List.mem_cons.1 hc with rfl | hc
      · exact h1
      · exact lt_trans h1 (hb c hc)
    · subst h2
      exact List.pairwise_cons.2 ⟨hb, hr⟩
    · refine List.pairwise_cons.2 ⟨fun c hc => ?_, ih hr⟩
      rcases mem_memWrite hc with rfl | hc
      · simp only; omega
      · exact hb c hc

/-- A write inside a bound keeps every address inside it. -/
theorem memWrite_bound {m : Memory} {n a : Nat} (h : ∀ c ∈ m, c.1 < n) (ha : a < n) (v : Byte) :
    ∀ c ∈ memWrite m a v, c.1 < n := by
  intro c hc
  rcases mem_memWrite hc with rfl | hc
  · exact ha
  · exact h c hc

/-- An address below every entry has no value. -/
theorem memRead_none {m : Memory} {x : Nat} (h : ∀ c ∈ m, x < c.1) : memRead m x = none := by
  induction m with
  | nil => rfl
  | cons d rest ih =>
    obtain ⟨b, w⟩ := d
    have hb := h (b, w) (by simp)
    simp only [memRead]
    rw [if_neg (by simp only at hb; omega)]
    exact ih fun c hc => h c (List.mem_cons_of_mem _ hc)

/-- Canonical memories that read the same are equal data. -/
theorem memory_ext {m n : Memory} (hm : Memory.wf m) (hn : Memory.wf n)
    (h : ∀ x, memRead m x = memRead n x) : m = n := by
  induction m generalizing n with
  | nil =>
    cases n with
    | nil => rfl
    | cons d rest => simpa [memRead] using h d.1
  | cons c rest ih =>
    cases n with
    | nil => simpa [memRead] using h c.1
    | cons d rest' =>
      obtain ⟨a, v⟩ := c
      obtain ⟨b, w⟩ := d
      obtain ⟨ha, hr⟩ := List.pairwise_cons.1 hm
      obtain ⟨hb, hr'⟩ := List.pairwise_cons.1 hn
      have hab : a = b := by
        rcases lt_trichotomy a b with hlt | heq | hgt
        · have h1 := h a
          rw [memRead_none (m := (b, w) :: rest')] at h1
          · simp [memRead] at h1
          · intro c hc
            rcases List.mem_cons.1 hc with rfl | hc
            · exact hlt
            · exact lt_trans hlt (hb c hc)
        · exact heq
        · have h1 := h b
          rw [memRead_none (m := (a, v) :: rest)] at h1
          · simp [memRead] at h1
          · intro c hc
            rcases List.mem_cons.1 hc with rfl | hc
            · exact hgt
            · exact lt_trans hgt (ha c hc)
      subst hab
      have hv : v = w := by simpa [memRead] using h a
      subst hv
      congr 1
      refine ih hr hr' fun x => ?_
      by_cases hx : x = a
      · subst hx
        rw [memRead_none ha, memRead_none hb]
      · simpa [memRead, hx] using h x

/-! ### Bytes of `buf` and `snd` -/

theorem State.bufByte_congr {s t : State} (h1 : t.buf = s.buf) (h2 : t.bufDraw = s.bufDraw) (x : Nat) :
    t.bufByte x = s.bufByte x := by
  simp [State.bufByte, h1, h2]

theorem State.sndByte_congr {s t : State} (h1 : t.snd = s.snd) (h2 : t.sndDraw = s.sndDraw) (x : Nat) :
    t.sndByte x = s.sndByte x := by
  simp [State.sndByte, h1, h2]

theorem State.bufByte_storeBuf (s : State) (a x : Nat) (v : Byte) :
    (s.storeBuf a v).bufByte x = if x = a then v else s.bufByte x := by
  simp only [State.bufByte, State.storeBuf_buf, State.storeBuf_bufDraw, memRead_memWrite]
  split_ifs <;> rfl

@[simp] theorem State.bufByte_storeBuf_same (s : State) (a : Nat) (v : Byte) : (s.storeBuf a v).bufByte a = v := by
  simp [State.bufByte_storeBuf]

theorem State.sndByte_storeSnd (s : State) (a x : Nat) (v : Byte) :
    (s.storeSnd a v).sndByte x = if x = a then v else s.sndByte x := by
  simp only [State.sndByte, State.storeSnd_snd, State.storeSnd_sndDraw, memRead_memWrite]
  split_ifs <;> rfl

@[simp] theorem State.sndByte_storeBuf (s : State) (a : Nat) (v : Byte) (x : Nat) :
    (s.storeBuf a v).sndByte x = s.sndByte x := rfl

@[simp] theorem State.tcpSlot_storeBuf (s : State) (a : Nat) (v : Byte) (x : Nat) :
    (s.storeBuf a v).tcpSlot x = s.tcpSlot x := rfl

@[simp] theorem State.udpSlot_storeBuf (s : State) (a : Nat) (v : Byte) (x : Nat) :
    (s.storeBuf a v).udpSlot x = s.udpSlot x := rfl

@[simp] theorem State.bufByte_storeSnd (s : State) (a : Nat) (v : Byte) (x : Nat) :
    (s.storeSnd a v).bufByte x = s.bufByte x := rfl

@[simp] theorem State.tcpSlot_storeSnd (s : State) (a : Nat) (v : Byte) (x : Nat) :
    (s.storeSnd a v).tcpSlot x = s.tcpSlot x := rfl

@[simp] theorem State.udpSlot_storeSnd (s : State) (a : Nat) (v : Byte) (x : Nat) :
    (s.storeSnd a v).udpSlot x = s.udpSlot x := rfl

@[simp] theorem State.bufByte_setLength (s : State) (v : Half) (x : Nat) :
    (s.setLength v).bufByte x = s.bufByte x := rfl

@[simp] theorem State.sndByte_setLength (s : State) (v : Half) (x : Nat) :
    (s.setLength v).sndByte x = s.sndByte x := rfl

@[simp] theorem State.tcpSlot_setLength (s : State) (v : Half) (x : Nat) :
    (s.setLength v).tcpSlot x = s.tcpSlot x := rfl

@[simp] theorem State.udpSlot_setLength (s : State) (v : Half) (x : Nat) :
    (s.setLength v).udpSlot x = s.udpSlot x := rfl

@[simp] theorem State.bufByte_setAppdata (s : State) (v : Half) (x : Nat) :
    (s.setAppdata v).bufByte x = s.bufByte x := rfl

@[simp] theorem State.sndByte_setAppdata (s : State) (v : Half) (x : Nat) :
    (s.setAppdata v).sndByte x = s.sndByte x := rfl

@[simp] theorem State.tcpSlot_setAppdata (s : State) (v : Half) (x : Nat) :
    (s.setAppdata v).tcpSlot x = s.tcpSlot x := rfl

@[simp] theorem State.udpSlot_setAppdata (s : State) (v : Half) (x : Nat) :
    (s.setAppdata v).udpSlot x = s.udpSlot x := rfl

@[simp] theorem State.bufByte_setSndptr (s : State) (v : Word) (x : Nat) :
    (s.setSndptr v).bufByte x = s.bufByte x := rfl

@[simp] theorem State.sndByte_setSndptr (s : State) (v : Word) (x : Nat) :
    (s.setSndptr v).sndByte x = s.sndByte x := rfl

@[simp] theorem State.tcpSlot_setSndptr (s : State) (v : Word) (x : Nat) :
    (s.setSndptr v).tcpSlot x = s.tcpSlot x := rfl

@[simp] theorem State.udpSlot_setSndptr (s : State) (v : Word) (x : Nat) :
    (s.setSndptr v).udpSlot x = s.udpSlot x := rfl

@[simp] theorem State.bufByte_setSndlen (s : State) (v : Half) (x : Nat) :
    (s.setSndlen v).bufByte x = s.bufByte x := rfl

@[simp] theorem State.sndByte_setSndlen (s : State) (v : Half) (x : Nat) :
    (s.setSndlen v).sndByte x = s.sndByte x := rfl

@[simp] theorem State.tcpSlot_setSndlen (s : State) (v : Half) (x : Nat) :
    (s.setSndlen v).tcpSlot x = s.tcpSlot x := rfl

@[simp] theorem State.udpSlot_setSndlen (s : State) (v : Half) (x : Nat) :
    (s.setSndlen v).udpSlot x = s.udpSlot x := rfl

@[simp] theorem State.bufByte_setCsbase (s : State) (v : Half) (x : Nat) :
    (s.setCsbase v).bufByte x = s.bufByte x := rfl

@[simp] theorem State.sndByte_setCsbase (s : State) (v : Half) (x : Nat) :
    (s.setCsbase v).sndByte x = s.sndByte x := rfl

@[simp] theorem State.tcpSlot_setCsbase (s : State) (v : Half) (x : Nat) :
    (s.setCsbase v).tcpSlot x = s.tcpSlot x := rfl

@[simp] theorem State.udpSlot_setCsbase (s : State) (v : Half) (x : Nat) :
    (s.setCsbase v).udpSlot x = s.udpSlot x := rfl

@[simp] theorem State.bufByte_setCslen (s : State) (v : Half) (x : Nat) :
    (s.setCslen v).bufByte x = s.bufByte x := rfl

@[simp] theorem State.sndByte_setCslen (s : State) (v : Half) (x : Nat) :
    (s.setCslen v).sndByte x = s.sndByte x := rfl

@[simp] theorem State.tcpSlot_setCslen (s : State) (v : Half) (x : Nat) :
    (s.setCslen v).tcpSlot x = s.tcpSlot x := rfl

@[simp] theorem State.udpSlot_setCslen (s : State) (v : Half) (x : Nat) :
    (s.setCslen v).udpSlot x = s.udpSlot x := rfl

@[simp] theorem State.bufByte_setCsres (s : State) (v : Half) (x : Nat) :
    (s.setCsres v).bufByte x = s.bufByte x := rfl

@[simp] theorem State.sndByte_setCsres (s : State) (v : Half) (x : Nat) :
    (s.setCsres v).sndByte x = s.sndByte x := rfl

@[simp] theorem State.tcpSlot_setCsres (s : State) (v : Half) (x : Nat) :
    (s.setCsres v).tcpSlot x = s.tcpSlot x := rfl

@[simp] theorem State.udpSlot_setCsres (s : State) (v : Half) (x : Nat) :
    (s.setCsres v).udpSlot x = s.udpSlot x := rfl

@[simp] theorem State.bufByte_setAcc32 (s : State) (v : Word) (x : Nat) :
    (s.setAcc32 v).bufByte x = s.bufByte x := rfl

@[simp] theorem State.sndByte_setAcc32 (s : State) (v : Word) (x : Nat) :
    (s.setAcc32 v).sndByte x = s.sndByte x := rfl

@[simp] theorem State.tcpSlot_setAcc32 (s : State) (v : Word) (x : Nat) :
    (s.setAcc32 v).tcpSlot x = s.tcpSlot x := rfl

@[simp] theorem State.udpSlot_setAcc32 (s : State) (v : Word) (x : Nat) :
    (s.setAcc32 v).udpSlot x = s.udpSlot x := rfl

@[simp] theorem State.bufByte_setOp16 (s : State) (v : Half) (x : Nat) :
    (s.setOp16 v).bufByte x = s.bufByte x := rfl

@[simp] theorem State.sndByte_setOp16 (s : State) (v : Half) (x : Nat) :
    (s.setOp16 v).sndByte x = s.sndByte x := rfl

@[simp] theorem State.tcpSlot_setOp16 (s : State) (v : Half) (x : Nat) :
    (s.setOp16 v).tcpSlot x = s.tcpSlot x := rfl

@[simp] theorem State.udpSlot_setOp16 (s : State) (v : Half) (x : Nat) :
    (s.setOp16 v).udpSlot x = s.udpSlot x := rfl

@[simp] theorem State.bufByte_setScan (s : State) (v : BitVec 10) (x : Nat) :
    (s.setScan v).bufByte x = s.bufByte x := rfl

@[simp] theorem State.sndByte_setScan (s : State) (v : BitVec 10) (x : Nat) :
    (s.setScan v).sndByte x = s.sndByte x := rfl

@[simp] theorem State.tcpSlot_setScan (s : State) (v : BitVec 10) (x : Nat) :
    (s.setScan v).tcpSlot x = s.tcpSlot x := rfl

@[simp] theorem State.udpSlot_setScan (s : State) (v : BitVec 10) (x : Nat) :
    (s.setScan v).udpSlot x = s.udpSlot x := rfl

@[simp] theorem State.bufByte_setIpid (s : State) (v : Half) (x : Nat) :
    (s.setIpid v).bufByte x = s.bufByte x := rfl

@[simp] theorem State.sndByte_setIpid (s : State) (v : Half) (x : Nat) :
    (s.setIpid v).sndByte x = s.sndByte x := rfl

@[simp] theorem State.tcpSlot_setIpid (s : State) (v : Half) (x : Nat) :
    (s.setIpid v).tcpSlot x = s.tcpSlot x := rfl

@[simp] theorem State.udpSlot_setIpid (s : State) (v : Half) (x : Nat) :
    (s.setIpid v).udpSlot x = s.udpSlot x := rfl

@[simp] theorem State.bufByte_setStatus (s : State) (f : Bool) (v : Byte) (x : Nat) :
    (s.setStatus f v).bufByte x = s.bufByte x := rfl

@[simp] theorem State.sndByte_setStatus (s : State) (f : Bool) (v : Byte) (x : Nat) :
    (s.setStatus f v).sndByte x = s.sndByte x := rfl

@[simp] theorem State.tcpSlot_setStatus (s : State) (f : Bool) (v : Byte) (x : Nat) :
    (s.setStatus f v).tcpSlot x = s.tcpSlot x := rfl

@[simp] theorem State.udpSlot_setStatus (s : State) (f : Bool) (v : Byte) (x : Nat) :
    (s.setStatus f v).udpSlot x = s.udpSlot x := rfl

@[simp] theorem State.bufByte_setScript (s : State) (v : List HostOp) (x : Nat) :
    (s.setScript v).bufByte x = s.bufByte x := rfl

@[simp] theorem State.sndByte_setScript (s : State) (v : List HostOp) (x : Nat) :
    (s.setScript v).sndByte x = s.sndByte x := rfl

@[simp] theorem State.tcpSlot_setScript (s : State) (v : List HostOp) (x : Nat) :
    (s.setScript v).tcpSlot x = s.tcpSlot x := rfl

@[simp] theorem State.udpSlot_setScript (s : State) (v : List HostOp) (x : Nat) :
    (s.setScript v).udpSlot x = s.udpSlot x := rfl

@[simp] theorem State.bufByte_setRdata (s : State) (v : Word) (x : Nat) :
    (s.setRdata v).bufByte x = s.bufByte x := rfl

@[simp] theorem State.sndByte_setRdata (s : State) (v : Word) (x : Nat) :
    (s.setRdata v).sndByte x = s.sndByte x := rfl

@[simp] theorem State.tcpSlot_setRdata (s : State) (v : Word) (x : Nat) :
    (s.setRdata v).tcpSlot x = s.tcpSlot x := rfl

@[simp] theorem State.udpSlot_setRdata (s : State) (v : Word) (x : Nat) :
    (s.setRdata v).udpSlot x = s.udpSlot x := rfl

@[simp] theorem State.bufByte_setTcp (s : State) (k : Nat) (v : TcpSlot) (x : Nat) :
    (s.setTcp k v).bufByte x = s.bufByte x := rfl

@[simp] theorem State.sndByte_setTcp (s : State) (k : Nat) (v : TcpSlot) (x : Nat) :
    (s.setTcp k v).sndByte x = s.sndByte x := rfl

@[simp] theorem State.udpSlot_setTcp (s : State) (k : Nat) (v : TcpSlot) (x : Nat) :
    (s.setTcp k v).udpSlot x = s.udpSlot x := rfl

@[simp] theorem State.bufByte_setUdp (s : State) (k : Nat) (v : UdpSlot) (x : Nat) :
    (s.setUdp k v).bufByte x = s.bufByte x := rfl

@[simp] theorem State.sndByte_setUdp (s : State) (k : Nat) (v : UdpSlot) (x : Nat) :
    (s.setUdp k v).sndByte x = s.sndByte x := rfl

@[simp] theorem State.tcpSlot_setUdp (s : State) (k : Nat) (v : UdpSlot) (x : Nat) :
    (s.setUdp k v).tcpSlot x = s.tcpSlot x := rfl

/-! ### Slots -/

@[simp] theorem State.tcpSlot_setTcp_same (s : State) {k : Nat} (v : TcpSlot) (h : k < s.tcp.length) :
    (s.setTcp k v).tcpSlot k = v := by
  simp [State.tcpSlot, h]

theorem State.tcpSlot_setTcp_other (s : State) {j k : Nat} (v : TcpSlot) (h : j ≠ k) :
    (s.setTcp k v).tcpSlot j = s.tcpSlot j := by
  simp [State.tcpSlot, List.getElem?_set_ne h.symm]

@[simp] theorem State.udpSlot_setUdp_same (s : State) {k : Nat} (v : UdpSlot) (h : k < s.udp.length) :
    (s.setUdp k v).udpSlot k = v := by
  simp [State.udpSlot, h]

theorem State.udpSlot_setUdp_other (s : State) {j k : Nat} (v : UdpSlot) (h : j ≠ k) :
    (s.setUdp k v).udpSlot j = s.udpSlot j := by
  simp [State.udpSlot, List.getElem?_set_ne h.symm]

/-! ### A run of bytes stored -/

/-- `storeBytes` changes `buf` and nothing else. -/
theorem State.storeBytes_eq (s : State) (a : Nat) (l : List Byte) :
    s.storeBytes a l = { s with buf := (s.storeBytes a l).buf } := by
  induction l generalizing s a with
  | nil => rfl
  | cons v rest ih =>
    simp only [State.storeBytes]
    rw [ih]
    rfl

/-- What `storeBytes` leaves in each byte. -/
theorem State.bufByte_storeBytes (s : State) (a x : Nat) (l : List Byte) :
    (s.storeBytes a l).bufByte x = if a ≤ x then (l[x - a]?).getD (s.bufByte x) else s.bufByte x := by
  induction l generalizing s a with
  | nil => simp [State.storeBytes]
  | cons v rest ih =>
    simp only [State.storeBytes]
    rw [ih, State.bufByte_storeBuf]
    rcases lt_trichotomy x a with h | h | h
    · rw [if_neg (by omega), if_neg (by omega), if_neg (by omega)]
    · subst h
      rw [if_neg (by omega), if_pos rfl, if_pos (le_refl _)]
      simp
    · obtain ⟨d, rfl⟩ : ∃ d, x = a + 1 + d := ⟨x - (a + 1), by omega⟩
      rw [if_pos (by omega), if_neg (by omega), if_pos (by omega), show a + 1 + d - (a + 1) = d by omega,
        show a + 1 + d - a = d + 1 by omega, List.getElem?_cons_succ]

/-- Outside the bytes stored, nothing changes. -/
theorem State.bufByte_storeBytes_other (s : State) {a x : Nat} {l : List Byte} (h : x < a ∨ a + l.length ≤ x) :
    (s.storeBytes a l).bufByte x = s.bufByte x := by
  rw [State.bufByte_storeBytes]
  split_ifs with h1
  · have : l[x - a]? = none := by simp; omega
    simp [this]
  · rfl

theorem State.storeBytes_wf {s : State} (h : Memory.wf s.buf) (a : Nat) (l : List Byte) :
    Memory.wf (s.storeBytes a l).buf := by
  induction l generalizing s a with
  | nil => exact h
  | cons v rest ih => exact ih (s := s.storeBuf a v) (memWrite_wf h a v) (a + 1)

theorem State.storeBytes_bound {s : State} {n : Nat} (h : ∀ c ∈ s.buf, c.1 < n) (a : Nat) (l : List Byte)
    (hl : a + l.length ≤ n) : ∀ c ∈ (s.storeBytes a l).buf, c.1 < n := by
  induction l generalizing s a with
  | nil => exact h
  | cons v rest ih =>
    simp only [List.length_cons] at hl
    exact ih (s := s.storeBuf a v) (memWrite_bound h (by omega) v) (a + 1) (by omega)

@[simp] theorem State.storeBytes_cfg (s : State) (a : Nat) (l : List Byte) :
    (s.storeBytes a l).cfg = s.cfg := by
  rw [State.storeBytes_eq]

@[simp] theorem State.storeBytes_length (s : State) (a : Nat) (l : List Byte) :
    (s.storeBytes a l).length = s.length := by
  rw [State.storeBytes_eq]

@[simp] theorem State.storeBytes_appdata (s : State) (a : Nat) (l : List Byte) :
    (s.storeBytes a l).appdata = s.appdata := by
  rw [State.storeBytes_eq]

@[simp] theorem State.storeBytes_sndptr (s : State) (a : Nat) (l : List Byte) :
    (s.storeBytes a l).sndptr = s.sndptr := by
  rw [State.storeBytes_eq]

@[simp] theorem State.storeBytes_sndlen (s : State) (a : Nat) (l : List Byte) :
    (s.storeBytes a l).sndlen = s.sndlen := by
  rw [State.storeBytes_eq]

@[simp] theorem State.storeBytes_snd (s : State) (a : Nat) (l : List Byte) :
    (s.storeBytes a l).snd = s.snd := by
  rw [State.storeBytes_eq]

@[simp] theorem State.storeBytes_tcp (s : State) (a : Nat) (l : List Byte) :
    (s.storeBytes a l).tcp = s.tcp := by
  rw [State.storeBytes_eq]

@[simp] theorem State.storeBytes_udp (s : State) (a : Nat) (l : List Byte) :
    (s.storeBytes a l).udp = s.udp := by
  rw [State.storeBytes_eq]

@[simp] theorem State.storeBytes_csbase (s : State) (a : Nat) (l : List Byte) :
    (s.storeBytes a l).csbase = s.csbase := by
  rw [State.storeBytes_eq]

@[simp] theorem State.storeBytes_cslen (s : State) (a : Nat) (l : List Byte) :
    (s.storeBytes a l).cslen = s.cslen := by
  rw [State.storeBytes_eq]

@[simp] theorem State.storeBytes_csres (s : State) (a : Nat) (l : List Byte) :
    (s.storeBytes a l).csres = s.csres := by
  rw [State.storeBytes_eq]

@[simp] theorem State.storeBytes_acc32 (s : State) (a : Nat) (l : List Byte) :
    (s.storeBytes a l).acc32 = s.acc32 := by
  rw [State.storeBytes_eq]

@[simp] theorem State.storeBytes_op16 (s : State) (a : Nat) (l : List Byte) :
    (s.storeBytes a l).op16 = s.op16 := by
  rw [State.storeBytes_eq]

@[simp] theorem State.storeBytes_scan (s : State) (a : Nat) (l : List Byte) :
    (s.storeBytes a l).scan = s.scan := by
  rw [State.storeBytes_eq]

@[simp] theorem State.storeBytes_ipid (s : State) (a : Nat) (l : List Byte) :
    (s.storeBytes a l).ipid = s.ipid := by
  rw [State.storeBytes_eq]

@[simp] theorem State.storeBytes_faultBit (s : State) (a : Nat) (l : List Byte) :
    (s.storeBytes a l).faultBit = s.faultBit := by
  rw [State.storeBytes_eq]

@[simp] theorem State.storeBytes_fcode (s : State) (a : Nat) (l : List Byte) :
    (s.storeBytes a l).fcode = s.fcode := by
  rw [State.storeBytes_eq]

@[simp] theorem State.storeBytes_script (s : State) (a : Nat) (l : List Byte) :
    (s.storeBytes a l).script = s.script := by
  rw [State.storeBytes_eq]

@[simp] theorem State.storeBytes_rdata (s : State) (a : Nat) (l : List Byte) :
    (s.storeBytes a l).rdata = s.rdata := by
  rw [State.storeBytes_eq]

@[simp] theorem State.storeBytes_answers (s : State) (a : Nat) (l : List Byte) :
    (s.storeBytes a l).answers = s.answers := by
  rw [State.storeBytes_eq]

@[simp] theorem State.storeBytes_requests (s : State) (a : Nat) (l : List Byte) :
    (s.storeBytes a l).requests = s.requests := by
  rw [State.storeBytes_eq]

@[simp] theorem State.storeBytes_draws (s : State) (a : Nat) (l : List Byte) :
    (s.storeBytes a l).draws = s.draws := by
  rw [State.storeBytes_eq]

@[simp] theorem State.storeBytes_bufDraw (s : State) (a : Nat) (l : List Byte) :
    (s.storeBytes a l).bufDraw = s.bufDraw := by
  rw [State.storeBytes_eq]

@[simp] theorem State.storeBytes_sndDraw (s : State) (a : Nat) (l : List Byte) :
    (s.storeBytes a l).sndDraw = s.sndDraw := by
  rw [State.storeBytes_eq]

@[simp] theorem State.sndByte_storeBytes (s : State) (a : Nat) (l : List Byte) (x : Nat) :
    (s.storeBytes a l).sndByte x = s.sndByte x :=
  State.sndByte_congr (by simp) (by simp) x

@[simp] theorem State.tcpSlot_storeBytes (s : State) (a : Nat) (l : List Byte) (x : Nat) :
    (s.storeBytes a l).tcpSlot x = s.tcpSlot x := by
  simp [State.tcpSlot]

@[simp] theorem State.udpSlot_storeBytes (s : State) (a : Nat) (l : List Byte) (x : Nat) :
    (s.storeBytes a l).udpSlot x = s.udpSlot x := by
  simp [State.udpSlot]

end Sys2Proof.Machine
end

