-- ==== Sys2Proof/Laws/Backend.lean ====
section
/-! SUPPORT. What one request can do, said once: 43_backend_port.md R214 as a lemma. -/

namespace Sys2Proof.Machine

/-- Everything a request of kind `k` on slot `slot` leaves as it was, and the only ways it changes the rest. -/
structure PbeFrame (k : PbeKind) (slot : Nat) (s t : State) : Prop where
  cfg : t.cfg = s.cfg
  csbase : t.csbase = s.csbase
  cslen : t.cslen = s.cslen
  csres : t.csres = s.csres
  acc32 : t.acc32 = s.acc32
  op16 : t.op16 = s.op16
  scan : t.scan = s.scan
  ipid : t.ipid = s.ipid
  faultBit : t.faultBit = s.faultBit
  fcode : t.fcode = s.fcode
  script : t.script = s.script
  rdata : t.rdata = s.rdata
  bufDraw : t.bufDraw = s.bufDraw
  sndDraw : t.sndDraw = s.sndDraw
  requests : t.requests = ⟨k, BitVec.ofNat 8 slot⟩ :: s.requests
  tcp : t.tcp = s.tcp ∨ (namesTcp k = true ∧ ∃ v, t.tcp = s.tcp.set slot v)
  udp : t.udp = s.udp ∨ (namesUdp k = true ∧ ∃ v, t.udp = s.udp.set slot v)
  bufByte : ∀ x, x < s.cfg.llHdrLen ∨ bufSize s.cfg ≤ x → t.bufByte x = s.bufByte x
  sndByte : ∀ x, s.cfg.sndSize ≤ x → t.sndByte x = s.sndByte x
  bufWf : Memory.wf s.buf → Memory.wf t.buf
  bufBound : (∀ c ∈ s.buf, c.1 < bufSize s.cfg) → ∀ c ∈ t.buf, c.1 < bufSize s.cfg
  sndWf : Memory.wf s.snd → Memory.wf t.snd
  sndBound : (∀ c ∈ s.snd, c.1 < s.cfg.sndSize) → ∀ c ∈ t.snd, c.1 < s.cfg.sndSize

/-- The back-end's writes to `buf` change `buf` and nothing else. -/
theorem pbeBufWrites_eq (l : List (Nat × Byte)) (s : State) :
    pbeBufWrites l s = { s with buf := (pbeBufWrites l s).buf } := by
  induction l generalizing s with
  | nil => rfl
  | cons c rest ih =>
    simp only [pbeBufWrites]
    rw [ih]
    split_ifs <;> rfl

/-- The back-end's writes to `snd` change `snd` and nothing else. -/
theorem pbeSndWrites_eq (l : List (Nat × Byte)) (s : State) :
    pbeSndWrites l s = { s with snd := (pbeSndWrites l s).snd } := by
  induction l generalizing s with
  | nil => rfl
  | cons c rest ih =>
    simp only [pbeSndWrites]
    rw [ih]
    split_ifs <;> rfl

theorem pbeBufWrites_cfg (l : List (Nat × Byte)) (s : State) : (pbeBufWrites l s).cfg = s.cfg := by
  rw [pbeBufWrites_eq]

/-- No byte outside `buf[L : BUF_SIZE]` is written. -/
theorem pbeBufWrites_bufByte (l : List (Nat × Byte)) (s : State) {x : Nat}
    (h : x < s.cfg.llHdrLen ∨ bufSize s.cfg ≤ x) : (pbeBufWrites l s).bufByte x = s.bufByte x := by
  induction l generalizing s with
  | nil => rfl
  | cons c rest ih =>
    simp only [pbeBufWrites]
    split_ifs with hc
    · rw [ih (s.storeBuf c.1 c.2) h, State.bufByte_storeBuf, if_neg (by omega)]
    · exact ih s h

theorem pbeBufWrites_wf (l : List (Nat × Byte)) {s : State} (h : Memory.wf s.buf) :
    Memory.wf (pbeBufWrites l s).buf := by
  induction l generalizing s with
  | nil => exact h
  | cons c rest ih =>
    simp only [pbeBufWrites]
    split_ifs
    · exact ih (s := s.storeBuf c.1 c.2) (memWrite_wf h _ _)
    · exact ih h

theorem pbeBufWrites_bound (l : List (Nat × Byte)) {s : State} (h : ∀ c ∈ s.buf, c.1 < bufSize s.cfg) :
    ∀ c ∈ (pbeBufWrites l s).buf, c.1 < bufSize s.cfg := by
  induction l generalizing s with
  | nil => exact h
  | cons c rest ih =>
    simp only [pbeBufWrites]
    split_ifs with hc
    · exact ih (s := s.storeBuf c.1 c.2) (memWrite_bound h hc.2 _)
    · exact ih h

/-- No byte at or beyond `SND_SIZE` is written. -/
theorem pbeSndWrites_sndByte (l : List (Nat × Byte)) (s : State) {x : Nat} (h : s.cfg.sndSize ≤ x) :
    (pbeSndWrites l s).sndByte x = s.sndByte x := by
  induction l generalizing s with
  | nil => rfl
  | cons c rest ih =>
    simp only [pbeSndWrites]
    split_ifs with hc
    · rw [ih (s.storeSnd c.1 c.2) h, State.sndByte_storeSnd, if_neg (by omega)]
    · exact ih s h

theorem pbeSndWrites_wf (l : List (Nat × Byte)) {s : State} (h : Memory.wf s.snd) :
    Memory.wf (pbeSndWrites l s).snd := by
  induction l generalizing s with
  | nil => exact h
  | cons c rest ih =>
    simp only [pbeSndWrites]
    split_ifs
    · exact ih (s := s.storeSnd c.1 c.2) (memWrite_wf h _ _)
    · exact ih h

theorem pbeSndWrites_bound (l : List (Nat × Byte)) {s : State} (h : ∀ c ∈ s.snd, c.1 < s.cfg.sndSize) :
    ∀ c ∈ (pbeSndWrites l s).snd, c.1 < s.cfg.sndSize := by
  induction l generalizing s with
  | nil => exact h
  | cons c rest ih =>
    simp only [pbeSndWrites]
    split_ifs with hc
    · exact ih (s := s.storeSnd c.1 c.2) (memWrite_bound h hc _)
    · exact ih h

/-- The slot part of an answer changes the named slot and nothing else. -/
theorem pbeSlot_cases (k : PbeKind) (slot : Nat) (a : PbeAnswer) (s : State) :
    pbeSlot k slot a s = s ∨ (namesTcp k = true ∧ ∃ v, pbeSlot k slot a s = s.setTcp slot v) ∨
      (namesUdp k = true ∧ ∃ v, pbeSlot k slot a s = s.setUdp slot v) := by
  unfold pbeSlot pbeTcpSlot pbeUdpSlot
  split_ifs with h1 h2
  · split
    · exact .inr (.inl ⟨h1, _, rfl⟩)
    · exact .inl rfl
  · split
    · exact .inr (.inr ⟨h2, _, rfl⟩)
    · exact .inl rfl
  · exact .inl rfl

/-- Taking an answer changes the answers left and the draws, and nothing else. -/
theorem nextAnswer_eq (s : State) :
    (nextAnswer s).2 = { s with answers := (nextAnswer s).2.answers, draws := (nextAnswer s).2.draws } := by
  unfold nextAnswer
  split <;> rfl

/-- `PBE(kind, slot)` keeps the frame condition of 43_backend_port.md R214. -/
theorem pbe_frame (k : PbeKind) (slot : Nat) (s : State) : PbeFrame k slot s (pbe k slot s) := by
  have hb := pbeBufWrites_eq (nextAnswer s).1.bufWrites (logRequest k slot (nextAnswer s).2)
  have hs := pbeSndWrites_eq (nextAnswer s).1.sndWrites
    (pbeBufWrites (nextAnswer s).1.bufWrites (logRequest k slot (nextAnswer s).2))
  have hn := nextAnswer_eq s
  set a := (nextAnswer s).1
  set s1 := (nextAnswer s).2
  set s2 := pbeBufWrites a.bufWrites (logRequest k slot s1)
  set s3 := pbeSndWrites a.sndWrites s2
  have key : ∀ t : State, (t = s3 ∨ (namesTcp k = true ∧ ∃ v, t = s3.setTcp slot v) ∨
      (namesUdp k = true ∧ ∃ v, t = s3.setUdp slot v)) → PbeFrame k slot s (pbeRegisters a t) := by
    intro t ht
    have c1 : s1.cfg = s.cfg := by rw [hn]
    have b1 : s1.buf = s.buf := by rw [hn]
    have n1 : s1.snd = s.snd := by rw [hn]
    have bd1 : s1.bufDraw = s.bufDraw := by rw [hn]
    have sd1 : s1.sndDraw = s.sndDraw := by rw [hn]
    have cl : (logRequest k slot s1).cfg = s.cfg := c1
    have hbuf : s3.buf = s2.buf := by rw [hs]
    have hsnd2 : s2.snd = s.snd := by rw [hb]; exact n1
    have hc2 : s2.cfg = s.cfg := by rw [hb]; exact c1
    have hbd : s3.bufDraw = s.bufDraw := by rw [hs, hb]; exact bd1
    have hsd2 : s2.sndDraw = s.sndDraw := by rw [hb]; exact sd1
    have hbd2 : s2.bufDraw = s.bufDraw := by rw [hb]; exact bd1
    have hsd : s3.sndDraw = s.sndDraw := by rw [hs]; exact hsd2
    have e : t.buf = s3.buf ∧ t.snd = s3.snd ∧ t.bufDraw = s3.bufDraw ∧ t.sndDraw = s3.sndDraw := by
      rcases ht with rfl | ⟨-, v, rfl⟩ | ⟨-, v, rfl⟩ <;> exact ⟨rfl, rfl, rfl, rfl⟩
    have s1e : ∀ {α : Type} (f : State → α), (∀ (x : State) (b : Memory) (n : Memory) (r : List PbeReq) (w : List PbeAnswer) (d : Nat),
        f { x with buf := b, snd := n, requests := r, answers := w, draws := d } = f x) → f s3 = f s := by
      intro α f hf
      have e1 : s3 = { s with buf := s3.buf, snd := s3.snd, requests := s3.requests, answers := s3.answers, draws := s3.draws } := by
        rw [hs, hb, hn]; rfl
      rw [e1, hf]
    have fr : ∀ {α : Type} (f : State → α), (∀ x v, f (State.setTcp x slot v) = f x) →
        (∀ x v, f (State.setUdp x slot v) = f x) → f t = f s3 := by
      intro α f h1 h2
      rcases ht with rfl | ⟨-, v, rfl⟩ | ⟨-, v, rfl⟩
      · rfl
      · exact h1 _ _
      · exact h2 _ _
    constructor
    case cfg => exact (fr State.cfg (fun _ _ => rfl) (fun _ _ => rfl)).trans (s1e State.cfg (fun _ _ _ _ _ _ => rfl))
    case csbase => exact (fr State.csbase (fun _ _ => rfl) (fun _ _ => rfl)).trans (s1e State.csbase (fun _ _ _ _ _ _ => rfl))
    case cslen => exact (fr State.cslen (fun _ _ => rfl) (fun _ _ => rfl)).trans (s1e State.cslen (fun _ _ _ _ _ _ => rfl))
    case csres => exact (fr State.csres (fun _ _ => rfl) (fun _ _ => rfl)).trans (s1e State.csres (fun _ _ _ _ _ _ => rfl))
    case acc32 => exact (fr State.acc32 (fun _ _ => rfl) (fun _ _ => rfl)).trans (s1e State.acc32 (fun _ _ _ _ _ _ => rfl))
    case op16 => exact (fr State.op16 (fun _ _ => rfl) (fun _ _ => rfl)).trans (s1e State.op16 (fun _ _ _ _ _ _ => rfl))
    case scan => exact (fr State.scan (fun _ _ => rfl) (fun _ _ => rfl)).trans (s1e State.scan (fun _ _ _ _ _ _ => rfl))
    case ipid => exact (fr State.ipid (fun _ _ => rfl) (fun _ _ => rfl)).trans (s1e State.ipid (fun _ _ _ _ _ _ => rfl))
    case faultBit => exact (fr State.faultBit (fun _ _ => rfl) (fun _ _ => rfl)).trans (s1e State.faultBit (fun _ _ _ _ _ _ => rfl))
    case fcode => exact (fr State.fcode (fun _ _ => rfl) (fun _ _ => rfl)).trans (s1e State.fcode (fun _ _ _ _ _ _ => rfl))
    case script => exact (fr State.script (fun _ _ => rfl) (fun _ _ => rfl)).trans (s1e State.script (fun _ _ _ _ _ _ => rfl))
    case rdata => exact (fr State.rdata (fun _ _ => rfl) (fun _ _ => rfl)).trans (s1e State.rdata (fun _ _ _ _ _ _ => rfl))
    case bufDraw => exact (fr State.bufDraw (fun _ _ => rfl) (fun _ _ => rfl)).trans (s1e State.bufDraw (fun _ _ _ _ _ _ => rfl))
    case sndDraw => exact (fr State.sndDraw (fun _ _ => rfl) (fun _ _ => rfl)).trans (s1e State.sndDraw (fun _ _ _ _ _ _ => rfl))
    case requests =>
      refine (fr State.requests (fun _ _ => rfl) (fun _ _ => rfl)).trans ?_
      rw [hs, hb, hn]
      rfl
    case tcp =>
      have h3 := s1e State.tcp (fun _ _ _ _ _ _ => rfl)
      rcases ht with rfl | ⟨hk, v, rfl⟩ | ⟨hk, v, rfl⟩
      · exact .inl h3
      · refine .inr ⟨hk, v, ?_⟩
        rw [← h3]; rfl
      · exact .inl h3
    case udp =>
      have h3 := s1e State.udp (fun _ _ _ _ _ _ => rfl)
      rcases ht with rfl | ⟨hk, v, rfl⟩ | ⟨hk, v, rfl⟩
      · exact .inl h3
      · exact .inl h3
      · refine .inr ⟨hk, v, ?_⟩
        rw [← h3]; rfl
    case bufByte =>
      intro x hx
      refine (State.bufByte_congr (s := s3) e.1 e.2.2.1 x).trans ?_
      refine (State.bufByte_congr (s := s2) hbuf (hbd.trans hbd2.symm) x).trans ?_
      refine (pbeBufWrites_bufByte a.bufWrites (logRequest k slot s1) (by rw [cl]; exact hx)).trans ?_
      exact State.bufByte_congr b1 bd1 x
    case sndByte =>
      intro x hx
      refine (State.sndByte_congr (s := s3) e.2.1 e.2.2.2 x).trans ?_
      refine (pbeSndWrites_sndByte a.sndWrites s2 (by rw [hc2]; exact hx)).trans ?_
      exact State.sndByte_congr hsnd2 hsd2 x
    case bufWf =>
      intro h
      show Memory.wf t.buf
      rw [e.1, hbuf]
      exact pbeBufWrites_wf a.bufWrites (s := logRequest k slot s1) (b1 ▸ h)
    case bufBound =>
      intro h
      show ∀ c ∈ t.buf, _
      rw [e.1, hbuf]
      have := pbeBufWrites_bound a.bufWrites (s := logRequest k slot s1) (by rw [cl]; exact b1 ▸ h)
      rwa [cl] at this
    case sndWf =>
      intro h
      show Memory.wf t.snd
      rw [e.2.1]
      exact pbeSndWrites_wf a.sndWrites (s := s2) (hsnd2 ▸ h)
    case sndBound =>
      intro h
      show ∀ c ∈ t.snd, _
      rw [e.2.1]
      have := pbeSndWrites_bound a.sndWrites (s := s2) (by rw [hc2, hsnd2]; exact h)
      rwa [hc2] at this
  exact key _ (pbeSlot_cases k slot a s3)

end Sys2Proof.Machine
end

