-- ==== Sys2Proof/Laws/Finalise.lean ====
section
/-! SUPPORT. What storing a header field, `UPPER` and the two finalisers can do, said once. -/

namespace Sys2Proof.Machine

/-! ### A change inside one range of `buf` -/

/-- `t` is `s` but for bytes of `buf` in the range `[lo, lo + n)`. -/
structure BufChange (s t : State) (lo n : Nat) : Prop where
  eq : t = { s with buf := t.buf }
  byte : ∀ x, x < lo ∨ lo + n ≤ x → t.bufByte x = s.bufByte x
  wf : Memory.wf s.buf → Memory.wf t.buf
  bound : ∀ m, lo + n ≤ m → (∀ c ∈ s.buf, c.1 < m) → ∀ c ∈ t.buf, c.1 < m

theorem BufChange.refl (s : State) (lo n : Nat) : BufChange s s lo n :=
  ⟨rfl, fun _ _ => rfl, fun h => h, fun _ _ h => h⟩

theorem BufChange.trans {s t u : State} {lo n : Nat} (h : BufChange s t lo n) (g : BufChange t u lo n) :
    BufChange s u lo n := by
  refine ⟨?_, fun x hx => (g.byte x hx).trans (h.byte x hx), fun w => g.wf (h.wf w),
    fun m hm b => g.bound m hm (h.bound m hm b)⟩
  rw [g.eq, h.eq]

theorem BufChange.mono {s t : State} {lo n lo' n' : Nat} (h : BufChange s t lo n) (h1 : lo' ≤ lo)
    (h2 : lo + n ≤ lo' + n') : BufChange s t lo' n' :=
  ⟨h.eq, fun x hx => h.byte x (by omega), h.wf, fun m hm => h.bound m (by omega)⟩

theorem storeBytes_change (s : State) (a : Nat) (l : List Byte) : BufChange s (s.storeBytes a l) a l.length :=
  ⟨State.storeBytes_eq s a l, fun _ hx => State.bufByte_storeBytes_other s hx, fun h => State.storeBytes_wf h a l,
    fun _ hm h => State.storeBytes_bound h a l hm⟩

theorem storeHeader_change (s : State) (k : Nat) (v : Half) :
    BufChange s (storeHeader s k v) (s.cfg.llHdrLen + k) 2 :=
  storeBytes_change s (s.cfg.llHdrLen + k) (bytes16 v)

theorem storeIpChecksum_change (s : State) : BufChange s (storeIpChecksum s) (s.cfg.llHdrLen + 10) 2 :=
  storeHeader_change s 10 (ipChecksum s)

/-- What `storeHeader` leaves in each byte. -/
theorem bufByte_storeHeader (s : State) (k x : Nat) (v : Half) :
    (storeHeader s k v).bufByte x =
      if x = s.cfg.llHdrLen + k then hi8 v else if x = s.cfg.llHdrLen + k + 1 then lo8 v else s.bufByte x := by
  rw [storeHeader, State.bufByte_storeBytes]
  split_ifs with h1 h2 h3
  · subst h2; simp [bytes16]
  · subst h3; simp [bytes16]
  · have : (bytes16 v)[x - (s.cfg.llHdrLen + k)]? = none := by simp [bytes16]; omega
    simp [this]
  · omega
  · omega
  · rfl

theorem BufChange.cfg {s t : State} {lo n : Nat} (h : BufChange s t lo n) : t.cfg = s.cfg := by rw [h.eq]

theorem BufChange.length {s t : State} {lo n : Nat} (h : BufChange s t lo n) : t.length = s.length := by rw [h.eq]

/-- The view depends on registers only. -/
theorem BufChange.viewOk {s t : State} {lo n : Nat} (h : BufChange s t lo n) : viewOk t = viewOk s := by
  rw [h.eq]; rfl

/-- The total-length field is not among the bytes changed. -/
theorem BufChange.totalLength {s t : State} {lo n : Nat} (h : BufChange s t lo n)
    (hx : s.cfg.llHdrLen + 4 ≤ lo ∨ lo + n ≤ s.cfg.llHdrLen + 2) : totalLength t = totalLength s := by
  unfold Machine.totalLength headerNat headerByte
  rw [h.cfg, h.byte _ (by omega), h.byte _ (by omega)]

theorem BufChange.upperOk {s t : State} {lo n : Nat} (h : BufChange s t lo n)
    (hx : s.cfg.llHdrLen + 4 ≤ lo ∨ lo + n ≤ s.cfg.llHdrLen + 2) : upperOk t = upperOk s := by
  unfold Machine.upperOk
  rw [h.viewOk, h.totalLength hx, h.length, h.cfg]

/-! ### The finalisers -/

theorem upper_eq_some {p : Byte} {s : State} (h : upperOk s = true) : upper p s = some (csum16 (upperBytes s p)) := by
  simp [upper, h]

/-- The state `TCP_FINALISE` leaves when the preconditions hold. -/
def tcpFilled (s : State) : State :=
  storeIpChecksum (storeHeader (tcpZeroed s) 36 (csum16 (upperBytes (tcpZeroed s) protoTcp)))

theorem storeHeader_cfg (s : State) (k : Nat) (v : Half) : (storeHeader s k v).cfg = s.cfg :=
  (storeHeader_change s k v).cfg

theorem storeHeader_change_in (s : State) {k m : Nat} (v : Half) (h : k + 2 ≤ m) :
    BufChange s (storeHeader s k v) s.cfg.llHdrLen m :=
  (storeHeader_change s k v).mono (by omega) (by omega)

theorem tcpZeroed_change (s : State) : BufChange s (tcpZeroed s) s.cfg.llHdrLen 40 := by
  refine (storeHeader_change_in s 0 (k := 10) (by omega)).trans ?_
  have := storeHeader_change_in (storeHeader s 10 0) 0 (k := 36) (m := 40) (by omega)
  rwa [storeHeader_cfg] at this

theorem tcpZeroed_upperOk (s : State) : upperOk (tcpZeroed s) = upperOk s := by
  rw [tcpZeroed, (storeHeader_change _ 36 0).upperOk (by omega), (storeHeader_change _ 10 0).upperOk (by omega)]

theorem tcpResponseOk_upperOk {s : State} (h : tcpResponseOk s = true) : upperOk s = true := by
  simp only [tcpResponseOk, Bool.and_eq_true, decide_eq_true_eq] at h
  simp only [upperOk, h.1.1.1, Bool.true_and, Bool.not_eq_true', Bool.or_eq_false_iff, decide_eq_false_iff_not]
  omega

theorem tcpFilled_change (s : State) : BufChange s (tcpFilled s) s.cfg.llHdrLen 40 := by
  have h0 := tcpZeroed_change s
  have h1 := storeHeader_change_in (tcpZeroed s) (csum16 (upperBytes (tcpZeroed s) protoTcp)) (k := 36) (m := 40) (by omega)
  rw [h0.cfg] at h1
  have h2 := (storeIpChecksum_change
    (storeHeader (tcpZeroed s) 36 (csum16 (upperBytes (tcpZeroed s) protoTcp)))).mono
      (lo' := s.cfg.llHdrLen) (n' := 40) (by rw [h1.cfg, h0.cfg]; omega) (by rw [h1.cfg, h0.cfg]; omega)
  exact (h0.trans h1).trans h2

/-- The internal `TCPCSUM()` cannot raise. -/
theorem tcpFill_eq {s : State} (h : tcpResponseOk s = true) : tcpFill s = .on (tcpFilled s) := by
  have hu : upper protoTcp (tcpZeroed s) = some (csum16 (upperBytes (tcpZeroed s) protoTcp)) :=
    upper_eq_some (by rw [tcpZeroed_upperOk, tcpResponseOk_upperOk h])
  rw [tcpFill, hu, tcpFilled]

/-- Everything `TCP_FINALISE` can do (41_dispatch.md R152, R153). -/
theorem tcpFinalise_cases (s : State) :
    (s.length = 0 ∧ tcpFinalise s = .on s) ∨
    (s.length ≠ 0 ∧ tcpResponseOk s = true ∧ tcpFinalise s = .on (tcpFilled s)) ∨
    (s.length ≠ 0 ∧ tcpResponseOk s = false ∧ tcpFinalise s = raise .badResponse s) := by
  unfold tcpFinalise
  by_cases h0 : s.length = 0
  · exact .inl ⟨h0, if_pos h0⟩
  · rw [if_neg h0]
    by_cases h1 : tcpResponseOk s = true
    · exact .inr (.inl ⟨h0, h1, by rw [if_pos h1, tcpFill_eq h1]⟩)
    · exact .inr (.inr ⟨h0, by simpa using h1, by rw [if_neg h1]⟩)

/-- The state `UDP_FINALISE` leaves when it builds a datagram. -/
def udpFilled (u : Nat) (s : State) : State :=
  let b := udpBuild (s.udpSlot u) (udpPayload s) s
  storeIpChecksum (storeHeader b 26 (udpStored s.cfg (csum16 (upperBytes b protoUdp))))

/-- `udpBuild` changes `IPID`, the 28 header bytes, `APPDATA` and `LENGTH`. -/
theorem udpBuild_eq (e : UdpSlot) (n : Nat) (s : State) :
    udpBuild e n s = { s with
      ipid := s.ipid + 1
      buf := (udpBuild e n s).buf
      appdata := BitVec.ofNat 16 (s.cfg.llHdrLen + 28)
      length := BitVec.ofNat 16 (s.cfg.llHdrLen + 28 + n) } := by
  have h := State.storeBytes_eq (s.setIpid (s.ipid + 1)) s.cfg.llHdrLen (udpHeaders s.cfg e (s.ipid + 1) n)
  unfold udpBuild
  generalize (s.setIpid (s.ipid + 1)).storeBytes s.cfg.llHdrLen (udpHeaders s.cfg e (s.ipid + 1) n) = x at h ⊢
  generalize x.buf = m at h
  subst h
  rfl

theorem udpBuild_buf (e : UdpSlot) (n : Nat) (s : State) : (udpBuild e n s).buf =
    ((s.setIpid (s.ipid + 1)).storeBytes s.cfg.llHdrLen (udpHeaders s.cfg e (s.ipid + 1) n)).buf := by
  simp only [udpBuild, State.setLength_buf, State.setAppdata_buf]

theorem udpHeaders_length (c : Config) (e : UdpSlot) (id : Half) (n : Nat) : (udpHeaders c e id n).length = 28 := rfl

/-- Byte `j` of the headers `udpBuild` stores, and every other byte as it was. -/
theorem udpBuild_byte (e : UdpSlot) (n : Nat) (s : State) (x : Nat) :
    (udpBuild e n s).bufByte x =
      if s.cfg.llHdrLen ≤ x then ((udpHeaders s.cfg e (s.ipid + 1) n)[x - s.cfg.llHdrLen]?).getD (s.bufByte x)
      else s.bufByte x := by
  simp only [udpBuild, State.bufByte_setLength, State.bufByte_setAppdata, State.bufByte_storeBytes, State.bufByte_setIpid]

theorem udpBuild_change (e : UdpSlot) (n : Nat) (s : State) :
    BufChange ((s.setIpid (s.ipid + 1)).setAppdata (BitVec.ofNat 16 (s.cfg.llHdrLen + 28)) |>.setLength
      (BitVec.ofNat 16 (s.cfg.llHdrLen + 28 + n))) (udpBuild e n s) s.cfg.llHdrLen 28 := by
  obtain ⟨-, hbyte, hwf, hbound⟩ :=
    storeBytes_change (s.setIpid (s.ipid + 1)) s.cfg.llHdrLen (udpHeaders s.cfg e (s.ipid + 1) n)
  rw [udpHeaders_length] at hbyte hbound
  refine ⟨?_, fun x hx => ?_, fun h => ?_, fun m hm h => ?_⟩
  · have h := udpBuild_eq e n s
    generalize udpBuild e n s = x at h ⊢
    generalize x.buf = m at h
    subst h
    rfl
  · simp only [udpBuild, State.bufByte_setLength, State.bufByte_setAppdata]
    exact hbyte x hx
  · rw [udpBuild_buf]
    exact hwf h
  · rw [udpBuild_buf]
    exact hbound m hm h

/-- What `udpBuild` leaves satisfies the checks of `UPPER` (41_dispatch.md R157). -/
theorem udpBuild_upperOk {s : State} (hb : bufSize s.cfg ≤ 65535) (hf : udpFits s = true) (u : Nat) :
    upperOk (udpBuild (s.udpSlot u) (udpPayload s) s) = true := by
  set b := udpBuild (s.udpSlot u) (udpPayload s) s with hbdef
  have hbe := udpBuild_eq (s.udpSlot u) (udpPayload s) s
  simp only [udpFits, Bool.and_eq_true, decide_eq_true_eq] at hf
  obtain ⟨hf1, hf2⟩ := hf
  have hL : bufSize s.cfg = s.cfg.mtu + s.cfg.llHdrLen := rfl
  have hlen : b.length.toNat = s.cfg.llHdrLen + 28 + udpPayload s := by
    rw [hbdef, hbe]
    simp only [BitVec.toNat_ofNat]
    omega
  have happ : b.appdata.toNat = s.cfg.llHdrLen + 28 := by
    rw [hbdef, hbe]
    simp only [BitVec.toNat_ofNat]
    omega
  have hcfg : b.cfg = s.cfg := by rw [hbdef, hbe]
  have hsl : b.sndlen = s.sndlen := by rw [hbdef, hbe]
  have hsp : b.sndptr = s.sndptr := by rw [hbdef, hbe]
  have hsplit : b.split = s.split := by simp only [State.split, hsl]
  have htot : totalLength b = 28 + udpPayload s := by
    have hb2 : headerByte b 2 = hi8 (BitVec.ofNat 16 (28 + udpPayload s)) := by
      rw [headerByte, hcfg, hbdef, udpBuild_byte, if_pos (by omega), show s.cfg.llHdrLen + 2 - s.cfg.llHdrLen = 2 by omega]
      rfl
    have hb3 : headerByte b 3 = lo8 (BitVec.ofNat 16 (28 + udpPayload s)) := by
      rw [headerByte, hcfg, hbdef, udpBuild_byte, if_pos (by omega), show s.cfg.llHdrLen + 3 - s.cfg.llHdrLen = 3 by omega]
      rfl
    rw [Machine.totalLength, headerNat, hb2, hb3, be16, hi8, lo8, BitVec.extractLsb'_toNat, BitVec.extractLsb'_toNat,
      BitVec.toNat_ofNat]
    simp only [Nat.shiftRight_eq_div_pow]
    omega
  have hview : viewOk b = true := by
    simp only [Machine.viewOk, Bool.and_eq_true, decide_eq_true_eq, Bool.or_eq_true]
    refine ⟨by rw [hlen, hcfg]; exact hf1, ?_⟩
    rw [hsplit]
    cases hs : s.split
    · exact .inl rfl
    · right
      have hp : udpPayload s = s.sndlen.toNat := by simp [udpPayload, hs]
      rw [hs] at hf2
      simp only [Bool.not_true, Bool.false_or, decide_eq_true_eq] at hf2
      rw [headerBound, hlen, happ, hsl, hsp, hcfg]
      rw [hp]
      omega
  simp only [Machine.upperOk, hview, Bool.true_and, Bool.not_eq_true', Bool.or_eq_false_iff, decide_eq_false_iff_not]
  rw [hlen, htot, hcfg]
  omega

/-- Everything `UDP_FINALISE` can do (41_dispatch.md R154 to R157); the internal `UDPCSUM()` cannot raise. -/
theorem udpFinalise_cases {s : State} (hb : bufSize s.cfg ≤ 65535) (u : Nat) :
    (udpPayload s = 0 ∧ udpFinalise u s = .on (s.setLength 0)) ∨
    (udpPayload s ≠ 0 ∧ udpFits s = true ∧ udpFinalise u s = .on (udpFilled u s)) ∨
    (udpPayload s ≠ 0 ∧ udpFits s = false ∧ udpFinalise u s = raise .range s) := by
  unfold udpFinalise
  by_cases h0 : udpPayload s = 0
  · exact .inl ⟨h0, if_pos h0⟩
  · rw [if_neg h0]
    by_cases h1 : udpFits s = true
    · refine .inr (.inl ⟨h0, h1, ?_⟩)
      rw [if_pos h1, udpFill, upper_eq_some (udpBuild_upperOk hb h1 u), udpFilled]
      rw [show (udpBuild (s.udpSlot u) (udpPayload s) s).cfg = s.cfg by rw [udpBuild_eq]]
    · exact .inr (.inr ⟨h0, by simpa using h1, by rw [if_neg h1]⟩)

/-- The datagram `UDP_FINALISE` builds changes `IPID`, `APPDATA`, `LENGTH` and bytes of `buf[L : L + 28]`. -/
theorem udpFilled_change (u : Nat) (s : State) :
    BufChange ((s.setIpid (s.ipid + 1)).setAppdata (BitVec.ofNat 16 (s.cfg.llHdrLen + 28)) |>.setLength
      (BitVec.ofNat 16 (s.cfg.llHdrLen + 28 + udpPayload s))) (udpFilled u s) s.cfg.llHdrLen 28 := by
  have h0 := udpBuild_change (s.udpSlot u) (udpPayload s) s
  have hc : (udpBuild (s.udpSlot u) (udpPayload s) s).cfg = s.cfg := by rw [udpBuild_eq]
  refine h0.trans ?_
  rw [udpFilled]
  set b := udpBuild (s.udpSlot u) (udpPayload s) s
  have h1 := storeHeader_change_in b (udpStored s.cfg (csum16 (upperBytes b protoUdp))) (k := 26) (m := 28) (by omega)
  rw [hc] at h1
  refine h1.trans ?_
  refine (storeIpChecksum_change _).mono ?_ ?_ <;> rw [storeHeader_cfg, hc] <;> omega

end Sys2Proof.Machine
end

