-- ==== Sys2Proof/Laws/Commands.lean ====
section
/-! SUPPORT. What a packet or polling command can never do, said once for all of them. -/

namespace Sys2Proof.Machine

/-- What every packet and polling command keeps, whatever the back-end answers. Two such changes in a row are one. -/
structure Keeps (s t : State) : Prop where
  cfg : t.cfg = s.cfg
  csbase : t.csbase = s.csbase
  cslen : t.cslen = s.cslen
  csres : t.csres = s.csres
  acc32 : t.acc32 = s.acc32
  op16 : t.op16 = s.op16
  script : t.script = s.script
  rdata : t.rdata = s.rdata
  bufDraw : t.bufDraw = s.bufDraw
  sndDraw : t.sndDraw = s.sndDraw
  tcpLen : t.tcp.length = s.tcp.length
  udpLen : t.udp.length = s.udp.length
  bufByte : ∀ x, x < s.cfg.llHdrLen ∨ bufSize s.cfg ≤ x → t.bufByte x = s.bufByte x
  bufWf : Memory.wf s.buf → Memory.wf t.buf
  bufBound : (∀ c ∈ s.buf, c.1 < bufSize s.cfg) → ∀ c ∈ t.buf, c.1 < bufSize s.cfg
  sndWf : Memory.wf s.snd → Memory.wf t.snd
  sndBound : (∀ c ∈ s.snd, c.1 < s.cfg.sndSize) → ∀ c ∈ t.snd, c.1 < s.cfg.sndSize
  status : (t.faultBit = s.faultBit ∧ t.fcode = s.fcode) ∨
    (t.faultBit = true ∧ 1 ≤ t.fcode.toNat ∧ t.fcode.toNat ≤ 5)
  requests : ∃ l, t.requests = l ++ s.requests
  quiet : t.requests = s.requests → t.snd = s.snd

theorem Keeps.refl (s : State) : Keeps s s := by
  constructor <;> first | rfl | exact fun _ _ => rfl | exact fun h => h | exact .inl ⟨rfl, rfl⟩ | exact ⟨[], rfl⟩ |
    exact fun _ => rfl

theorem Keeps.trans {s t u : State} (h : Keeps s t) (g : Keeps t u) : Keeps s u := by
  constructor
  case cfg => rw [g.cfg, h.cfg]
  case csbase => rw [g.csbase, h.csbase]
  case cslen => rw [g.cslen, h.cslen]
  case csres => rw [g.csres, h.csres]
  case acc32 => rw [g.acc32, h.acc32]
  case op16 => rw [g.op16, h.op16]
  case script => rw [g.script, h.script]
  case rdata => rw [g.rdata, h.rdata]
  case bufDraw => rw [g.bufDraw, h.bufDraw]
  case sndDraw => rw [g.sndDraw, h.sndDraw]
  case tcpLen => rw [g.tcpLen, h.tcpLen]
  case udpLen => rw [g.udpLen, h.udpLen]
  case bufByte => intro x hx; rw [g.bufByte x (by rw [h.cfg]; exact hx), h.bufByte x hx]
  case bufWf => exact fun w => g.bufWf (h.bufWf w)
  case bufBound => intro b; have := g.bufBound (by rw [h.cfg]; exact h.bufBound b); rwa [h.cfg] at this
  case sndWf => exact fun w => g.sndWf (h.sndWf w)
  case sndBound => intro b; have := g.sndBound (by rw [h.cfg]; exact h.sndBound b); rwa [h.cfg] at this
  case status =>
    rcases g.status with ⟨a, b⟩ | c
    · rw [a, b]; exact h.status
    · exact .inr c
  case requests =>
    obtain ⟨l, hl⟩ := h.requests
    obtain ⟨m, hm⟩ := g.requests
    exact ⟨m ++ l, by rw [hm, hl, List.append_assoc]⟩
  case quiet =>
    intro e
    obtain ⟨l, hl⟩ := h.requests
    obtain ⟨m, hm⟩ := g.requests
    have h2 : m = [] ∧ l = [] := by
      have := congrArg List.length e
      rw [hm, hl] at this
      simp only [List.length_append] at this
      exact ⟨List.length_eq_zero_iff.1 (by omega), List.length_eq_zero_iff.1 (by omega)⟩
    rw [g.quiet (by rw [hm, h2.1]; rfl), h.quiet (by rw [hl, h2.2]; rfl)]

/-! ### The single updates -/

theorem keeps_setLength (s : State) (v : Half) : Keeps s (s.setLength v) := { Keeps.refl s with }

theorem keeps_setAppdata (s : State) (v : Half) : Keeps s (s.setAppdata v) := { Keeps.refl s with }

theorem keeps_setSndlen (s : State) (v : Half) : Keeps s (s.setSndlen v) := { Keeps.refl s with }

theorem keeps_setScan (s : State) (v : BitVec 10) : Keeps s (s.setScan v) := { Keeps.refl s with }

theorem keeps_setIpid (s : State) (v : Half) : Keeps s (s.setIpid v) := { Keeps.refl s with }

theorem keeps_setTcp (s : State) (k : Nat) (v : TcpSlot) : Keeps s (s.setTcp k v) :=
  { Keeps.refl s with tcpLen := by simp }

theorem faultCode_range (c : ContractFault) : 1 ≤ (faultCode c).toNat ∧ (faultCode c).toNat ≤ 5 := by
  cases c <;> decide

theorem keeps_raise (c : ContractFault) (s : State) : Keeps s (raise c s).state :=
  { Keeps.refl s with status := .inr ⟨rfl, faultCode_range c⟩ }

theorem keeps_pbe (k : PbeKind) (slot : Nat) (s : State) : Keeps s (pbe k slot s) := by
  have h := pbe_frame k slot s
  exact {
    cfg := h.cfg, csbase := h.csbase, cslen := h.cslen, csres := h.csres, acc32 := h.acc32, op16 := h.op16,
    script := h.script, rdata := h.rdata, bufDraw := h.bufDraw, sndDraw := h.sndDraw,
    tcpLen := by rcases h.tcp with e | ⟨-, v, e⟩ <;> simp [e]
    udpLen := by rcases h.udp with e | ⟨-, v, e⟩ <;> simp [e]
    bufByte := h.bufByte, bufWf := h.bufWf, bufBound := h.bufBound, sndWf := h.sndWf, sndBound := h.sndBound,
    status := .inl ⟨h.faultBit, h.fcode⟩
    requests := ⟨[_], h.requests⟩
    quiet := fun e => by
      rw [h.requests] at e
      exact absurd (congrArg List.length e) (by simp) }

theorem keeps_bufChange {s t : State} {n : Nat} (h : BufChange s t s.cfg.llHdrLen n)
    (hn : s.cfg.llHdrLen + n ≤ bufSize s.cfg) : Keeps s t := by
  have e := h.eq
  constructor
  case bufByte => exact fun x hx => h.byte x (by omega)
  case bufWf => exact h.wf
  case bufBound => exact h.bound _ hn
  case sndWf => rw [e]; exact fun w => w
  case sndBound => rw [e]; exact fun w => w
  case status => rw [e]; exact .inl ⟨rfl, rfl⟩
  case requests => rw [e]; exact ⟨[], rfl⟩
  case quiet => rw [e]; exact fun _ => rfl
  all_goals rw [e]

/-! ### The pieces of the commands; `room` is `MTU >= 40` and `BUF_SIZE <= 65535` (00_scope.md R13) -/

/-- What 00_scope.md R13 requires of the buffer's size. -/
structure Room (c : Config) : Prop where
  mtu : 40 ≤ c.mtu
  max : bufSize c ≤ 65535

theorem Config.ok_room {c : Config} (h : c.ok = true) : Room c := by
  simp only [Config.ok, Bool.and_eq_true, decide_eq_true_eq] at h
  exact ⟨by omega, by unfold bufSize; omega⟩

theorem Room.header {c : Config} (h : Room c) {n : Nat} (hn : n ≤ 40) : c.llHdrLen + n ≤ bufSize c := by
  have := h.mtu
  unfold bufSize
  omega

theorem keeps_tcpFinalise {s : State} (h : Room s.cfg) : Keeps s (tcpFinalise s).state := by
  rcases tcpFinalise_cases s with ⟨-, e⟩ | ⟨-, -, e⟩ | ⟨-, -, e⟩ <;> rw [e]
  · exact Keeps.refl s
  · exact keeps_bufChange (tcpFilled_change s) (h.header (le_refl _))
  · exact keeps_raise _ s

theorem keeps_udpFinalise {s : State} (h : Room s.cfg) (u : Nat) : Keeps s (udpFinalise u s).state := by
  rcases udpFinalise_cases h.max u with ⟨-, e⟩ | ⟨-, -, e⟩ | ⟨-, -, e⟩ <;> rw [e]
  · exact keeps_setLength s 0
  · refine (((keeps_setIpid s (s.ipid + 1)).trans (keeps_setAppdata _ (BitVec.ofNat 16 (s.cfg.llHdrLen + 28)))).trans
      (keeps_setLength _ (BitVec.ofNat 16 (s.cfg.llHdrLen + 28 + udpPayload s)))).trans ?_
    exact keeps_bufChange (udpFilled_change u s) (h.header (by omega))
  · exact keeps_raise _ s

theorem keeps_tcpRequest {s : State} (h : Room s.cfg) (k : PbeKind) (slot : Nat) :
    Keeps s (tcpRequest k slot s).state := by
  have hp := keeps_pbe k slot s
  exact hp.trans (keeps_tcpFinalise (by rw [hp.cfg]; exact h))

theorem keeps_andThen {s : State} {r : Run} {f : State → Run} (h : Keeps s r.state)
    (g : ∀ t, r = .on t → Keeps t (f t).state) : Keeps s (r.andThen f).state := by
  cases r with
  | on t => exact h.trans (g t rfl)
  | raised t => exact h

theorem keeps_teardown {s : State} (h : Room s.cfg) (k : Nat) : Keeps s (teardown k s).state :=
  keeps_andThen (keeps_tcpRequest h .abort k) fun t _ => keeps_setTcp t k _

theorem keeps_pollActive {s : State} (h : Room s.cfg) (k : Nat) (t : TcpSlot) : Keeps s (pollActive k t s).state := by
  have g : ∀ v, Keeps s (s.setTcp k v) := keeps_setTcp s k
  unfold pollActive pollRetransmit pollKeepalive
  split_ifs <;> first
    | exact (g _).trans (keeps_teardown (by exact h) k)
    | exact (g _).trans (keeps_tcpRequest (by exact h) _ k)

theorem keeps_tcpPoll {s : State} (h : Room s.cfg) (k : Nat) : Keeps s (tcpPoll k s).state := by
  unfold tcpPoll
  split_ifs
  · exact keeps_raise _ s
  · exact ((keeps_setLength s 0).trans (keeps_setSndlen _ 0)).trans (keeps_pollActive (by exact h) k _)
  · exact keeps_setLength s 0

theorem keeps_udpRequest {s : State} (h : Room s.cfg) (k : PbeKind) (u : Nat) :
    Keeps s (udpFinalise u (pbe k u s)).state := by
  have hp := keeps_pbe k u s
  exact hp.trans (keeps_udpFinalise (by rw [hp.cfg]; exact h) u)

theorem keeps_udpPoll {s : State} (h : Room s.cfg) (k : Nat) : Keeps s (udpPoll k s).state := by
  unfold udpPoll
  split_ifs
  · exact keeps_raise _ s
  · exact ((keeps_setLength s 0).trans (keeps_setSndlen _ 0)).trans (keeps_udpRequest (by exact h) .udpPoll k)
  · exact keeps_setLength s 0

theorem keeps_pendingSend {s : State} (h : Room s.cfg) (k : Nat) : Keeps s (pendingSend k s).state := by
  unfold pendingSend
  split_ifs
  · exact keeps_raise _ s
  · exact ((keeps_setLength s 0).trans (keeps_setSndlen _ 0)).trans (keeps_tcpRequest (by exact h) .pollSend k)
  · exact keeps_setLength s 0

theorem keeps_udpSend {s : State} (h : Room s.cfg) (k : Nat) : Keeps s (udpSend k s).state := by
  unfold udpSend
  split_ifs
  · exact keeps_raise _ s
  · exact keeps_udpFinalise h k
  · exact keeps_setLength s 0

theorem keeps_tcpDeliver {s : State} (h : Room s.cfg) : Keeps s (tcpDeliver s).state := by
  unfold tcpDeliver
  split
  · exact (keeps_setTcp s _ _).trans (keeps_tcpRequest (by exact h) _ _)
  · split <;> exact keeps_tcpRequest h _ _

theorem keeps_udpDeliver {s : State} (h : Room s.cfg) : Keeps s (udpDeliver s).state := by
  unfold udpDeliver
  split
  · exact keeps_udpRequest h _ _
  · exact keeps_setLength s 0

theorem keeps_inbound {s : State} (h : Room s.cfg) : Keeps s (inbound s).state := by
  unfold inbound demux tcpIn udpIn
  split
  · exact keeps_setLength s 0
  · split_ifs
    · split
      · exact keeps_setLength s 0
      · exact (keeps_setAppdata s _).trans (keeps_tcpDeliver (by exact h))
    · split
      · exact keeps_setLength s 0
      · exact (keeps_setAppdata s _).trans (keeps_udpDeliver (by exact h))
    · exact keeps_setLength s 0

theorem keeps_pollIndex {s : State} (h : Room s.cfg) (k : Nat) : Keeps s (pollIndex k s).state := by
  unfold pollIndex
  split_ifs
  · exact keeps_tcpPoll h k
  · exact keeps_udpPoll h _

theorem keeps_timerLoop (n : Nat) {s : State} (h : Room s.cfg) : Keeps s (timerLoop n s).state := by
  induction n generalizing s with
  | zero => exact Keeps.refl s
  | succ n ih =>
    unfold timerLoop
    split_ifs
    · have hk : Keeps s (pollIndex s.scan.toNat (s.setScan (s.scan + 1))).state :=
        (keeps_setScan s (s.scan + 1)).trans (keeps_pollIndex (by exact h) _)
      refine keeps_andThen hk fun t ht => ?_
      rw [ht] at hk
      split_ifs
      · exact ih (by have := hk.cfg; simp only [Run.on_state] at this; rw [this]; exact h)
      · exact Keeps.refl t
    · exact Keeps.refl s

theorem keeps_evTimer {s : State} (h : Room s.cfg) :
    Keeps s ((timerLoop (totalSlots s.cfg) (s.setLength 0)).andThen scanWrap).state := by
  refine keeps_andThen ((keeps_setLength s 0).trans (keeps_timerLoop _ (by exact h))) fun t _ => ?_
  unfold scanWrap
  split_ifs
  · exact keeps_setScan t 0
  · exact Keeps.refl t

/-- The commands of the packet and polling units (30_encoding.md R80: `UNIT` 1 and 2). -/
def packetCommand : Instr → Bool
  | .acc32 => false
  | .icsum => false
  | .ipcsum => false
  | .tcpcsum => false
  | .udpcsum => false
  | .evData => true
  | .evTimer => true
  | .evPoll _ => true
  | .evUdpsend _ => true
  | .evUdptimer _ => true
  | .tcpPoll _ => true
  | .udpPoll _ => true

/-- Every packet and polling command keeps what `Keeps` says (00_scope.md R13 for `Room`). -/
theorem exec_keeps {i : Instr} {s t : State} (hi : packetCommand i = true) (h : Room s.cfg) (e : exec i s = .next t) :
    Keeps s t := by
  cases i <;> simp only [packetCommand, Bool.false_eq_true] at hi <;>
    simp only [exec, execEvData, execEvTimer, execEvPoll, execEvUdpsend, execEvUdptimer, execTcpPoll, execUdpPoll,
      Run.outcome, Host.Outcome.next.injEq] at e <;> subst e
  case evData =>
    split_ifs
    · exact keeps_raise _ s
    · exact (keeps_setSndlen s 0).trans (keeps_inbound (by exact h))
  case evTimer => exact keeps_evTimer h
  case evPoll => exact keeps_pendingSend h _
  case evUdpsend => exact keeps_udpSend h _
  case evUdptimer => exact keeps_udpPoll h _
  case tcpPoll => exact keeps_tcpPoll h _
  case udpPoll => exact keeps_udpPoll h _

end Sys2Proof.Machine
end

