-- ==== Sys2Proof/Laws/PerInstr.lean ====
section
/-! SUPPORT. A statement about the encoding of every command, one lemma per constructor. -/

namespace Sys2Proof.Laws

/-- The mask of a command's row (30_encoding.md R88). -/
def rowMask : Instr → Word
  | .acc32 => 0xFFFFFFFF
  | .icsum => 0xFFFFFFFF
  | .ipcsum => 0xFFFFFFFF
  | .tcpcsum => 0xFFFFFFFF
  | .udpcsum => 0xFFFFFFFF
  | .evData => 0xFFFFFFFF
  | .evTimer => 0xFFFFFFFF
  | .evPoll _ => 0xFFFF00FF
  | .evUdpsend _ => 0xFFFF00FF
  | .evUdptimer _ => 0xFFFF00FF
  | .tcpPoll _ => 0xFFFF00FF
  | .udpPoll _ => 0xFFFF00FF

/-- The match value of a command's row: its `OPC` (30_encoding.md R82, R88). -/
def rowMatch : Instr → Word
  | .acc32 => 0x00
  | .icsum => 0x01
  | .ipcsum => 0x02
  | .tcpcsum => 0x03
  | .udpcsum => 0x04
  | .evData => 0x10
  | .evTimer => 0x11
  | .evPoll _ => 0x12
  | .evUdpsend _ => 0x13
  | .evUdptimer _ => 0x14
  | .tcpPoll _ => 0x20
  | .udpPoll _ => 0x21

/-- The encoding of a command is in its row of the opcode table, and its reserved bits are 0 (30_encoding.md R80, R88). -/
def EncodeFields.Statement (i : Instr) : Prop :=
  encode i &&& rowMask i = rowMatch i ∧ rsvField (encode i) = 0

theorem EncodeFields.acc32 : EncodeFields.Statement .acc32 := by unfold Statement; decide
theorem EncodeFields.icsum : EncodeFields.Statement .icsum := by unfold Statement; decide
theorem EncodeFields.ipcsum : EncodeFields.Statement .ipcsum := by unfold Statement; decide
theorem EncodeFields.tcpcsum : EncodeFields.Statement .tcpcsum := by unfold Statement; decide
theorem EncodeFields.udpcsum : EncodeFields.Statement .udpcsum := by unfold Statement; decide
theorem EncodeFields.evData : EncodeFields.Statement .evData := by unfold Statement; decide
theorem EncodeFields.evTimer : EncodeFields.Statement .evTimer := by unfold Statement; decide

/-- A word of format C as a number (30_encoding.md R80). -/
theorem formatC_toNat (slot opc : Byte) : (formatC slot opc).toNat = slot.toNat * 256 + opc.toNat := by
  rw [formatC, BitVec.toNat_append, BitVec.toNat_append, ← Nat.shiftLeft_add_eq_or_of_lt opc.isLt]
  simp [Nat.shiftLeft_eq]

/-- The fields of a word of format C (30_encoding.md R80). -/
theorem formatC_fields (slot opc : Byte) : rsvField (formatC slot opc) = 0 ∧
    slotField (formatC slot opc) = slot ∧ opcField (formatC slot opc) = opc := by
  have h1 := slot.isLt
  have h2 := opc.isLt
  refine ⟨?_, ?_, ?_⟩ <;> apply BitVec.eq_of_toNat_eq <;>
    simp only [rsvField, slotField, opcField, BitVec.extractLsb'_toNat, formatC_toNat, Nat.shiftRight_eq_div_pow] <;>
    simp <;> omega

/-- A word of format C under the mask of a command with a slot (30_encoding.md R88). -/
theorem formatC_mask (slot opc : Byte) : formatC slot opc &&& 0xFFFF00FF = opc.setWidth 32 := by
  unfold formatC
  apply BitVec.eq_of_getLsbD_eq
  intro i hi
  rw [BitVec.getLsbD_and, BitVec.getLsbD_append, BitVec.getLsbD_append, BitVec.getLsbD_setWidth]
  by_cases h : i < 8
  · interval_cases i <;> simp
  · have : opc.getLsbD i = false := BitVec.getLsbD_of_ge _ _ (by omega)
    interval_cases i <;> simp_all

theorem EncodeFields.evPoll (slot : Byte) : EncodeFields.Statement (.evPoll slot) :=
  ⟨formatC_mask slot 0x12, (formatC_fields slot 0x12).1⟩
theorem EncodeFields.evUdpsend (slot : Byte) : EncodeFields.Statement (.evUdpsend slot) :=
  ⟨formatC_mask slot 0x13, (formatC_fields slot 0x13).1⟩
theorem EncodeFields.evUdptimer (slot : Byte) : EncodeFields.Statement (.evUdptimer slot) :=
  ⟨formatC_mask slot 0x14, (formatC_fields slot 0x14).1⟩
theorem EncodeFields.tcpPoll (slot : Byte) : EncodeFields.Statement (.tcpPoll slot) :=
  ⟨formatC_mask slot 0x20, (formatC_fields slot 0x20).1⟩
theorem EncodeFields.udpPoll (slot : Byte) : EncodeFields.Statement (.udpPoll slot) :=
  ⟨formatC_mask slot 0x21, (formatC_fields slot 0x21).1⟩

end Sys2Proof.Laws
end

