-- ==== Sys2Proof/Laws/Reentry.lean ====
section
/-! SUPPORT. What a re-entry leaves as it was (60_exceptions.md R249). -/

namespace Sys2Proof.Machine

/-- What the answers to the requests of an abandoned command leave as it was, and that `snd` keeps its form. -/
structure SndOnly (s t : State) : Prop where
  eq : t = { s with snd := t.snd, answers := t.answers, draws := t.draws }
  answers : t.answers <:+ s.answers
  sndWf : Memory.wf s.snd → Memory.wf t.snd
  sndBound : (∀ c ∈ s.snd, c.1 < s.cfg.sndSize) → ∀ c ∈ t.snd, c.1 < s.cfg.sndSize

theorem SndOnly.refl (s : State) : SndOnly s s := ⟨rfl, List.suffix_refl _, fun h => h, fun h => h⟩

theorem SndOnly.trans {s t u : State} (h : SndOnly s t) (g : SndOnly t u) : SndOnly s u := by
  refine ⟨?_, g.answers.trans h.answers, fun w => g.sndWf (h.sndWf w), fun b => ?_⟩
  · rw [g.eq, h.eq]
  · have hc : t.cfg = s.cfg := by rw [h.eq]
    have := g.sndBound (by rw [hc]; exact h.sndBound b)
    rwa [hc] at this

theorem sndOnly_nextAnswer (s : State) : SndOnly s (nextAnswer s).2 := by
  unfold nextAnswer
  split
  · rename_i a rest h
    exact ⟨rfl, ⟨[a], h.symm⟩, fun w => w, fun b => b⟩
  · exact ⟨rfl, List.suffix_refl _, fun w => w, fun b => b⟩

theorem sndOnly_pbeSndWrites (l : List (Nat × Byte)) (s : State) : SndOnly s (pbeSndWrites l s) :=
  ⟨by rw [pbeSndWrites_eq], by rw [pbeSndWrites_eq], pbeSndWrites_wf l, pbeSndWrites_bound l⟩

/-- The answers of an abandoned command reach `snd`, the answers left and the draws, and nothing else. -/
theorem sndOnly_answersTaken (n cut : Nat) (s : State) : SndOnly s (answersTaken n cut s) := by
  induction n generalizing s with
  | zero => exact SndOnly.refl s
  | succ n ih => exact ((sndOnly_nextAnswer s).trans (sndOnly_pbeSndWrites _ _)).trans (ih _)

variable (i : Instr) (s : State)

@[simp] theorem reentryState_cfg : (reentryState i s).cfg = s.cfg := rfl
@[simp] theorem reentryState_buf : (reentryState i s).buf = [] := rfl
@[simp] theorem reentryState_snd : (reentryState i s).snd = (abandoned i s).snd := rfl
@[simp] theorem reentryState_answers : (reentryState i s).answers = (abandoned i s).answers := rfl
@[simp] theorem reentryState_script : (reentryState i s).script = s.script := rfl
@[simp] theorem reentryState_rdata : (reentryState i s).rdata = s.rdata := rfl
@[simp] theorem reentryState_sndDraw : (reentryState i s).sndDraw = s.sndDraw := rfl
@[simp] theorem reentryState_faultBit : (reentryState i s).faultBit = true := rfl
@[simp] theorem reentryState_fcode : (reentryState i s).fcode = 3 := rfl
@[simp] theorem reentryState_tcp_length : (reentryState i s).tcp.length = s.tcp.length := by
  simp [reentryState, freeTable]
@[simp] theorem reentryState_udp_length : (reentryState i s).udp.length = s.udp.length := by
  simp [reentryState, freeTable]

/-- The requests of an abandoned command are among those it would have made, the oldest of them. -/
theorem reentryState_requests_suffix : (reentryState i s).requests <:+ (completed i s).requests := List.drop_suffix _ _

/-- A command that makes no request leaves `snd`, the answers and the request log alone when it is abandoned. -/
theorem abandoned_of_no_request (h : requestCount i s = 0) : abandoned i s = s := by
  unfold abandoned requestsMade
  rw [h, Nat.min_zero]
  rfl

end Sys2Proof.Machine
end

