-- ==== Sys2Proof/Laws/Timer.lean ====
section
/-! SUPPORT. The polls do not read `SCAN` (42_polling.md R190), so a poll and a write of the cursor commute; and the loop of
`EV_TIMER`, one round at a time. -/

namespace Sys2Proof.Machine

/-- The same end with a changed state. -/
def Run.map (f : State → State) : Run → Run
  | .on s => .on (f s)
  | .raised s => .raised (f s)

theorem storeBytes_setScan (s : State) (v : BitVec 10) (a : Nat) (l : List Byte) :
    (s.setScan v).storeBytes a l = (s.storeBytes a l).setScan v := by
  induction l generalizing s a with
  | nil => rfl
  | cons b r ih => exact ih (s.storeBuf a b) (a + 1)

theorem storeHeader_setScan (s : State) (v : BitVec 10) (k : Nat) (c : Half) :
    storeHeader (s.setScan v) k c = (storeHeader s k c).setScan v := storeBytes_setScan s v _ _

theorem upper_setScan (p : Byte) (s : State) (v : BitVec 10) : upper p (s.setScan v) = upper p s := rfl

theorem storeIp_setScan (s : State) (v : BitVec 10) : storeIpChecksum (s.setScan v) = (storeIpChecksum s).setScan v := 
  storeHeader_setScan s v 10 _

theorem tcpFill_setScan (s : State) (v : BitVec 10) : tcpFill (s.setScan v) = (tcpFill s).map (·.setScan v) := by
  unfold tcpFill tcpZeroed
  rw [storeHeader_setScan, storeHeader_setScan, upper_setScan]
  split
  · rw [storeHeader_setScan, storeIp_setScan]; rfl
  · rfl

theorem tcpFinalise_setScan (s : State) (v : BitVec 10) : tcpFinalise (s.setScan v) = (tcpFinalise s).map (·.setScan v) := by
  unfold tcpFinalise
  rw [tcpFill_setScan]
  have : tcpResponseOk (s.setScan v) = tcpResponseOk s := rfl
  rw [this]
  show (if s.length = 0 then _ else _) = _
  split_ifs <;> rfl

theorem udpFinalise_setScan (u : Nat) (s : State) (v : BitVec 10) : udpFinalise u (s.setScan v) = (udpFinalise u s).map (·.setScan v) := by
  unfold udpFinalise
  have h1 : udpPayload (s.setScan v) = udpPayload s := rfl
  have h2 : udpFits (s.setScan v) = udpFits s := rfl
  have h3 : ∀ e n, udpBuild e n (s.setScan v) = (udpBuild e n s).setScan v := by
    intro e n
    unfold udpBuild
    rw [show (s.setScan v).setIpid ((s.setScan v).ipid + 1) = (s.setIpid (s.ipid + 1)).setScan v from rfl, storeBytes_setScan]; rfl
  have h4 : ∀ t : State, udpFill (t.setScan v) = (udpFill t).map (·.setScan v) := by
    intro t
    unfold udpFill
    rw [upper_setScan]
    split
    · rw [storeHeader_setScan, storeIp_setScan]; rfl
    · rfl
  rw [h1, h2, h3, h4]
  show (if _ then _ else if _ then (udpFill (udpBuild (s.udpSlot u) _ s)).map _ else _) = _
  split_ifs <;> rfl

theorem pbe_setScan (k : PbeKind) (n : Nat) (s : State) (v : BitVec 10) : pbe k n (s.setScan v) = (pbe k n s).setScan v := by
  have hb : ∀ (l : List (Nat × Byte)) (t : State), pbeBufWrites l (t.setScan v) = (pbeBufWrites l t).setScan v := by
    intro l; induction l with
    | nil => intro t; rfl
    | cons c r ih => 
      intro t; simp only [pbeBufWrites]
      rw [← ih]
      show pbeBufWrites r (if t.cfg.llHdrLen ≤ c.1 ∧ c.1 < bufSize t.cfg then _ else _) = _
      split_ifs <;> rfl
  have hs : ∀ (l : List (Nat × Byte)) (t : State), pbeSndWrites l (t.setScan v) = (pbeSndWrites l t).setScan v := by
    intro l; induction l with
    | nil => intro t; rfl
    | cons c r ih => 
      intro t; simp only [pbeSndWrites]
      rw [← ih]
      show pbeSndWrites r (if c.1 < t.cfg.sndSize then _ else _) = _
      split_ifs <;> rfl
  have hn : (nextAnswer (s.setScan v)) = ((nextAnswer s).1, (nextAnswer s).2.setScan v) := by
    have ha : (s.setScan v).answers = s.answers := rfl
    unfold nextAnswer
    rw [ha]
    cases s.answers <;> rfl
  unfold pbe
  rw [hn]
  simp only
  unfold applyAnswer
  rw [show logRequest k n ((nextAnswer s).2.setScan v) = (logRequest k n (nextAnswer s).2).setScan v from rfl, hb, hs]
  unfold pbeSlot pbeTcpSlot pbeUdpSlot
  split_ifs
  · split <;> rfl
  · split <;> rfl
  · rfl

theorem tcpRequest_setScan (k : PbeKind) (n : Nat) (s : State) (v : BitVec 10) :
    tcpRequest k n (s.setScan v) = (tcpRequest k n s).map (·.setScan v) := by
  rw [tcpRequest, pbe_setScan, tcpFinalise_setScan]; rfl

theorem teardown_setScan (k : Nat) (s : State) (v : BitVec 10) :
    teardown k (s.setScan v) = (teardown k s).map (·.setScan v) := by
  rw [teardown, tcpRequest_setScan, teardown]
  cases tcpRequest .abort k s <;> rfl

theorem pollActive_setScan (k : Nat) (t : TcpSlot) (s : State) (v : BitVec 10) :
    pollActive k t (s.setScan v) = (pollActive k t s).map (·.setScan v) := by
  have h1 : ∀ x, teardown k ((s.setScan v).setTcp k x) = (teardown k (s.setTcp k x)).map (·.setScan v) :=
    fun x => teardown_setScan k (s.setTcp k x) v
  have h2 : ∀ r x, tcpRequest r k ((s.setScan v).setTcp k x) = (tcpRequest r k (s.setTcp k x)).map (·.setScan v) :=
    fun r x => tcpRequest_setScan r k (s.setTcp k x) v
  unfold pollActive pollRetransmit pollKeepalive
  simp only [h1, h2, State.setScan_cfg]
  split_ifs <;> rfl

theorem tcpPoll_setScan (k : Nat) (s : State) (v : BitVec 10) : tcpPoll k (s.setScan v) = (tcpPoll k s).map (·.setScan v) := by
  have h : (((s.setScan v).setLength 0).setSndlen 0) = ((s.setLength 0).setSndlen 0).setScan v := rfl
  unfold tcpPoll
  rw [h, pollActive_setScan]
  show (if s.cfg.nTcp ≤ k then _ else if (s.tcpSlot k).active then _ else _) = _
  split_ifs <;> rfl

theorem udpPoll_setScan (k : Nat) (s : State) (v : BitVec 10) : udpPoll k (s.setScan v) = (udpPoll k s).map (·.setScan v) := by
  have h : (((s.setScan v).setLength 0).setSndlen 0) = ((s.setLength 0).setSndlen 0).setScan v := rfl
  unfold udpPoll
  rw [h, pbe_setScan, udpFinalise_setScan]
  show (if s.cfg.nUdp ≤ k then _ else if (s.udpSlot k).active then _ else _) = _
  split_ifs <;> rfl

theorem pollIndex_setScan (k : Nat) (s : State) (v : BitVec 10) :
    pollIndex k (s.setScan v) = (pollIndex k s).map (·.setScan v) := by
  unfold pollIndex
  rw [tcpPoll_setScan, udpPoll_setScan]
  show (if k < s.cfg.nTcp then _ else _) = _
  split_ifs <;> rfl

/-- A poll in range empties the buffer first, so the old `LENGTH` does not matter. -/
theorem pollIndex_setLength {k : Nat} {s : State} (h : k < totalSlots s.cfg) (v : Half) :
    pollIndex k (s.setLength v) = pollIndex k s := by
  unfold pollIndex
  by_cases hk : k < s.cfg.nTcp
  · rw [if_pos (show k < (s.setLength v).cfg.nTcp from hk), if_pos hk]
    have h1 : ¬ s.cfg.nTcp ≤ k := by omega
    unfold tcpPoll
    rw [if_neg h1, if_neg (show ¬ (s.setLength v).cfg.nTcp ≤ k from h1)]
    rfl
  · have hu : ¬ s.cfg.nUdp ≤ k - s.cfg.nTcp := by unfold totalSlots at h; split_ifs at h <;> omega
    rw [if_neg (show ¬ k < (s.setLength v).cfg.nTcp from hk), if_neg hk]
    unfold udpPoll
    rw [if_neg hu, if_neg (show ¬ (s.setLength v).cfg.nUdp ≤ (k - (s.setLength v).cfg.nTcp) from hu)]
    rfl

theorem setScan_self (s : State) : s.setScan s.scan = s := rfl

theorem pollIndex_scan (k : Nat) (s : State) : (pollIndex k s).state.scan = s.scan := by
  have := pollIndex_setScan k s s.scan
  rw [setScan_self] at this
  rw [this]; cases pollIndex k s <;> rfl

theorem timerLoop_step (n : Nat) {s : State} (h : s.scan.toNat < totalSlots s.cfg) :
    timerLoop (n + 1) s = ((pollIndex s.scan.toNat s).map (·.setScan (s.scan + 1))).andThen
      (fun t => if t.length = 0 then timerLoop n t else .on t) := by
  rw [timerLoop, if_pos h, pollIndex_setScan]

/-- More fuel than the slots left changes nothing. -/
theorem timerLoop_fuel {s : State} (hr : Room s.cfg) (hN : totalSlots s.cfg < 1024) {n m : Nat} (hn : totalSlots s.cfg ≤ s.scan.toNat + n) (hm : totalSlots s.cfg ≤ s.scan.toNat + m) :
    timerLoop n s = timerLoop m s := by
  induction n generalizing s m with
  | zero => 
    cases m with
    | zero => rfl
    | succ m => rw [timerLoop, timerLoop, if_neg (by omega)]
  | succ n ih =>
    cases m with
    | zero => rw [timerLoop, timerLoop, if_neg (by omega)]
    | succ m =>
      by_cases h : s.scan.toNat < totalSlots s.cfg
      · rw [timerLoop_step n h, timerLoop_step m h]
        have hc := (keeps_pollIndex hr s.scan.toNat).cfg
        cases hp : pollIndex s.scan.toNat s with
        | raised t => rfl
        | on t =>
          rw [hp] at hc
          simp only [Run.map, Run.andThen]
          split_ifs
          · have hc' : (t.setScan (s.scan + 1)).cfg = s.cfg := hc
            have hsc : (t.setScan (s.scan + 1)).scan.toNat = s.scan.toNat + 1 := by
              show (s.scan + 1).toNat = _; rw [BitVec.toNat_add]; simp; omega
            exact ih (by rw [hc']; exact hr) (by rw [hc']; exact hN) (by rw [hc', hsc]; omega) (by rw [hc', hsc]; omega)
          · rfl
      · rw [timerLoop, timerLoop, if_neg h, if_neg h]

end Sys2Proof.Machine
end

