-- ==== Sys2Proof/Tests/Slice0.lean ====
section
/-! SUPPORT. The model's own tests: the check of WellFormed, decoding of words written out from 30_encoding.md, one-step vectors of
95_test_vectors.md (named in each docstring), and for every statement with hypotheses a state and operands that meet them. -/

namespace Sys2Proof.Tests

set_option Elab.async false

open Sys2Proof Sys2Proof.Machine Sys2Proof.Claims

/-! ### Builders -/

/-- Bytes from an address upwards. -/
def cells : Nat → List Byte → Memory
  | _, [] => []
  | a, b :: rest => (a, b) :: cells (a + 1) rest

/-- The state a command ends in. -/
def after : Host.Outcome State Fault Refusal → State
  | .next s => s
  | .fault _ => State.reset
  | .refused _ => State.reset

/-- The machine after reset with these bytes at `buf[14]`, after the link header, and `LENGTH` at their end. -/
def frame (bytes : List Byte) : State :=
  { State.reset with buf := cells 14 bytes, length := BitVec.ofNat 16 (14 + bytes.length) }

/-- F-UDP of 95_test_vectors.md section 4, from `buf[14]`. -/
def fUdp : List Byte :=
  [0x45, 0x00, 0x00, 0x21, 0x00, 0x01, 0x00, 0x00, 0x40, 0x11, 0xf8, 0xb2, 0xc0, 0xa8, 0x00, 0x01, 0xc0, 0xa8, 0x00, 0xc7,
   0x04, 0xd2, 0x16, 0x2e, 0x00, 0x0d, 0x1e, 0xe9, 0x68, 0x65, 0x6c, 0x6c, 0x6f]

/-- F-SYN of 95_test_vectors.md section 4, from `buf[14]`. -/
def fSyn : List Byte :=
  [0x45, 0x00, 0x00, 0x28, 0x12, 0x34, 0x40, 0x00, 0x40, 0x06, 0x14, 0x9a, 0x0a, 0x00, 0x00, 0x02, 0x0a, 0x00, 0x00, 0x01,
   0x9c, 0x40, 0x00, 0x50, 0x00, 0x00, 0x00, 0x01, 0x00, 0x00, 0x00, 0x00, 0x50, 0x02, 0x10, 0x00, 0xef, 0x4e, 0x00, 0x00]

/-- The identity of section 5, with the four timer fields. -/
def peer (rtxTimer : Half) (rtxCount : Byte) (kaTimer : Half) (kaCount : Byte) : TcpSlot :=
  ⟨0x0A000001, 0x0A000002, 80, 40000, true, 2, rtxTimer, rtxCount, kaTimer, kaCount⟩

/-- SEG(peer, flags) of section 2, checksum fields 0. -/
def segment (flags : Byte) : List Byte :=
  [0x45, 0x00, 0x00, 0x28, 0x00, 0x00, 0x00, 0x00, 0x40, 0x06, 0x00, 0x00, 0x0a, 0x00, 0x00, 0x01, 0x0a, 0x00, 0x00, 0x02,
   0x00, 0x50, 0x9c, 0x40, 0x00, 0x00, 0x00, 0x00, 0x00, 0x00, 0x00, 0x00, 0x50, flags, 0x00, 0x00, 0x00, 0x00, 0x00, 0x00]

/-- T-PBE's answer that builds SEG(peer, flags), leaving the named slot as given. -/
def answerSegment (flags : Byte) (slot : Option TcpSlot) : PbeAnswer :=
  ⟨some 54, some 54, none, some 0, slot, none, cells 14 (segment flags), []⟩

/-- An answer of a TCP kind that cannot be finalised: a packet shorter than its headers. -/
def badAnswer : PbeAnswer := ⟨some 53, none, none, none, none, none, [], []⟩

/-- A UDP answer that leaves this many bytes of `snd` as payload. -/
def payloadAnswer (n : Half) : PbeAnswer := ⟨none, none, some 0, some n, none, none, [], [(0, 0x68)]⟩

/-- The receiver of section 4 in slot 1. -/
def receiver : UdpSlot := ⟨0xC0A800C7, 0xC0A80001, 5678, 1234, true⟩

/-- F-UDP received. -/
def udpFrame : State :=
  { frame fUdp with udp := [.zero, receiver, .zero, .zero], sndlen := 7, appdata := 99, answers := [.nothing] }

/-- F-SYN received, with T-PBE's SYN-ACK to come (program P5). -/
def synFrame : State :=
  { frame fSyn with answers := [answerSegment 0x12 (some (peer 3 0 0 0))] }

/-- F-SYN received by a connection with keepalive on. -/
def synForPeer (a : PbeAnswer) : State :=
  { frame fSyn with tcp := peer 2 1 4 1 :: List.replicate 7 .zero, answers := [a] }

/-- The sender of program P2. -/
def sender : State :=
  { State.reset with
    udp := [⟨0xC0A80001, 0xC0A800C7, 1234, 5678, true⟩, .zero, .zero, .zero]
    snd := cells 0x100 [0x68, 0x65, 0x6c, 0x6c, 0x6f]
    sndptr := 0x100
    sndlen := 5 }

/-- TCP slot 0 with these timer fields and these answers to come. -/
def polled (t : TcpSlot) (answers : List PbeAnswer) : State :=
  { State.reset with tcp := t :: List.replicate 7 .zero, length := 99, sndlen := 5, answers := answers }

/-! ### WellFormed: each command that needs UDP support is refused without it -/

theorem test_wf_refuses_evUdpsend : Instr.wf false (.evUdpsend 0) = false := by decide
theorem test_wf_refuses_evUdptimer : Instr.wf false (.evUdptimer 0) = false := by decide
theorem test_wf_refuses_udpPoll : Instr.wf false (.udpPoll 0) = false := by decide
theorem test_wf_allows_udpcsum : Instr.wf false .udpcsum = true := by decide

/-! ### Decoding: words written out as RSV, SLOT, UNIT, FUNC (30_encoding.md R80, R82; V6.1 to V6.12) -/

theorem test_decode_acc32 : decodeTableWord 32 0b0000000000000000_00000000_0000_0000 = some .acc32 := by decide
theorem test_decode_icsum : decodeTableWord 32 0b0000000000000000_00000000_0000_0001 = some .icsum := by decide
theorem test_decode_ipcsum : decodeTableWord 32 0b0000000000000000_00000000_0000_0010 = some .ipcsum := by decide
theorem test_decode_tcpcsum : decodeTableWord 32 0b0000000000000000_00000000_0000_0011 = some .tcpcsum := by decide
theorem test_decode_udpcsum : decodeTableWord 32 0b0000000000000000_00000000_0000_0100 = some .udpcsum := by decide
theorem test_decode_evData : decodeTableWord 32 0b0000000000000000_00000000_0001_0000 = some .evData := by decide
theorem test_decode_evTimer : decodeTableWord 32 0b0000000000000000_00000000_0001_0001 = some .evTimer := by decide
theorem test_decode_evPoll : decodeTableWord 32 0b0000000000000000_00000111_0001_0010 = some (.evPoll 7) := by decide
theorem test_decode_evUdpsend : decodeTableWord 32 0b0000000000000000_10000001_0001_0011 = some (.evUdpsend 129) := by decide
theorem test_decode_evUdptimer : decodeTableWord 32 0b0000000000000000_00000100_0001_0100 = some (.evUdptimer 4) := by decide
theorem test_decode_tcpPoll : decodeTableWord 32 0b0000000000000000_00000011_0010_0000 = some (.tcpPoll 3) := by decide
theorem test_decode_udpPoll : decodeTableWord 32 0b0000000000000000_11111111_0010_0001 = some (.udpPoll 255) := by decide
theorem test_decode_refuses_unit3 : decodeTableWord 32 0x30 = none := by decide
theorem test_decode_refuses_reserved : decodeTableWord 32 0x00010010 = none := by decide

/-- A word placed by `withFetchWord` runs as the first command after reset. -/
theorem test_fetch_word_runs :
    (after (step ({ State.reset with op16 := 1, acc32 := 0xFFFF }.withFetchWord 32 0))).acc32 = 0x00010000 := by decide

/-- The host reads a byte of the send-data region (70_reset_and_hazards.md R284). -/
theorem test_snd_read : (after (step { State.reset with snd := [(5, 0x68)], script := [.sndRead 5] })).rdata = 0x68 := by decide

/-! ### One step of each command -/

/-- V1.4. -/
theorem test_acc32_carries : (after (exec .acc32 { State.reset with acc32 := 0x12345678, op16 := 0xFFFF })).acc32 = 0x12355677 := by
  decide

/-- V1.3. -/
theorem test_acc32_wraps : (after (exec .acc32 { State.reset with acc32 := 0xFFFFFFFF, op16 := 1 })).acc32 = 0 := by decide

/-- V2.13 at `buf[1509]`, the last five bytes (V2.16). -/
theorem test_icsum_odd_length :
    (after (exec .icsum { State.reset with buf := cells 1509 [0x12, 0x34, 0x56, 0x78, 0x9a], csbase := 1509, cslen := 5 })).csres =
      0xFD52 := by decide

/-- V2.17. -/
theorem test_icsum_range :
    statusWord (after (exec .icsum { State.reset with csbase := 1510, cslen := 5 })) = 0x00000401 := by decide

/-- V3.1, V2.14. -/
theorem test_ipcsum : (after (exec .ipcsum (frame [0x45, 0x00, 0x00, 0x73, 0x00, 0x00, 0x40, 0x00, 0x40, 0x11, 0x00, 0x00,
    0xc0, 0xa8, 0x00, 0x01, 0xc0, 0xa8, 0x00, 0xc7]))).csres = 0xB861 := by decide

/-- V3.4 with the checksum stored. -/
theorem test_tcpcsum_verifies : (after (exec .tcpcsum (frame fSyn))).csres = 0 := by decide

/-- V3.5: a frame one byte shorter than the datagram. -/
theorem test_tcpcsum_range : statusWord (after (exec .tcpcsum { frame fSyn with length := 53 })) = 0x00000401 := by decide

/-- V3.3: the payload in `snd`, the checksum field 0. -/
theorem test_udpcsum_split : (after (exec .udpcsum { sender with
    buf := cells 14 (fUdp.take 26 ++ [0x00, 0x00]), length := 47, appdata := 42 })).csres = 0x1EE9 := by decide

/-- V4.1. -/
theorem test_evData_udp : (fun t : State => (t.length, t.appdata, t.sndlen, t.requests)) (after (exec .evData udpFrame)) =
    (0, 42, 0, [⟨.udpIn, 1⟩]) := by decide +kernel

/-- V4.30 and program P5: the response's checksums and the slot. -/
theorem test_evData_syn : (fun t : State => (bufRange t 24 2, bufRange t 50 2, t.tcp.head?, t.requests)) (after (exec .evData synFrame)) =
    ([0x66, 0xce], [0xff, 0x3f], some (peer 3 0 0 0), [⟨.segNew, 0⟩]) := by decide +kernel

/-- V4.50. -/
theorem test_evTimer_idle : after (exec .evTimer { State.reset with length := 9 }) = State.reset := by decide +kernel

/-- Program P4: the tick stops at slot 3 with its packet. -/
theorem test_evTimer_stops : (fun t : State => (t.length, t.scan, t.requests)) (after (exec .evTimer { State.reset with
    tcp := [.zero, .zero, .zero, peer 1 0 0 0, .zero, .zero, .zero, .zero], answers := [answerSegment 0x10 none] })) =
      (54, 4, [⟨.retransmit, 3⟩]) := by decide +kernel

/-- V4.49. -/
theorem test_evPoll_inactive : exec (.evPoll 2) { State.reset with length := 99, sndlen := 5 } =
    .next { State.reset with sndlen := 5 } := rfl

/-- V6.10. -/
theorem test_evPoll_range : statusWord (after (exec (.evPoll 8) State.reset)) = 0x00000201 := by decide

/-- Program P2. -/
theorem test_evUdpsend : (fun t : State => (t.length, t.appdata, t.ipid, bufRange t 14 28)) (after (exec (.evUdpsend 0) sender)) =
    (47, 42, 1, fUdp.take 28) := by decide +kernel

/-- V4.44. -/
theorem test_evUdpsend_range : statusWord (after (exec (.evUdpsend 0) { sender with sndlen := 1473 })) = 0x00000401 := by decide +kernel

/-- V4.48. -/
theorem test_evUdptimer : (fun t : State => (t.length, t.sndlen, t.requests)) (after (exec (.evUdptimer 0)
    { sender with length := 5, answers := [.nothing] })) = (0, 0, [⟨.udpPoll, 0⟩]) := by decide +kernel

/-- V5.5, tick 1: both timers expire and the keepalive waits. -/
theorem test_tcpPoll_both_timers : (fun t : State => (t.length, t.tcp.head?, t.requests)) (after (exec (.tcpPoll 0)
    (polled (peer 1 0 1 0) [answerSegment 0x10 none]))) = (54, some (peer 3 1 1 0), [⟨.retransmit, 0⟩]) := by decide +kernel

/-- V5.3, tick 8: the teardown's packet and the closed slot. -/
theorem test_tcpPoll_teardown : (fun t : State => (t.length, t.tcp.head?, bufRange t 47 5)) (after (exec (.tcpPoll 0)
    (polled (peer 1 2 0 0) [answerSegment 0x14 none]))) =
      (54, some ⟨0x0A000001, 0x0A000002, 80, 40000, false, 0, 0, 0, 0, 0⟩, [0x14, 0x00, 0x00, 0xff, 0x3d]) := by decide +kernel

/-- V6.3. -/
theorem test_udpPoll_range : statusWord (after (exec (.udpPoll 255) State.reset)) = 0x00000201 := by decide

/-- V5.7. -/
theorem test_udpPoll : (fun t : State => (t.length, t.sndlen, t.ipid)) (after (exec (.udpPoll 0)
    { sender with length := 5, answers := [.nothing] })) = (0, 0, 0) := by decide

/-! ### For each statement with hypotheses, a state and operands that meet them, clause by clause -/

theorem cells_bound (l : List Byte) (a : Nat) : ∀ c ∈ cells a l, a ≤ c.1 ∧ c.1 < a + l.length := by
  induction l generalizing a with
  | nil => simp [cells]
  | cons b rest ih =>
    intro c hc
    rcases List.mem_cons.1 hc with rfl | hc
    · simp
    · have := ih (a + 1) c hc
      simp only [List.length_cons]
      omega

theorem cells_wf (l : List Byte) (a : Nat) : Memory.wf (cells a l) := by
  induction l generalizing a with
  | nil => exact List.Pairwise.nil
  | cons b rest ih => exact List.pairwise_cons.2 ⟨fun c hc => by have := (cells_bound rest (a + 1) c hc).1; simp only; omega, ih _⟩

theorem reference_ok : Config.reference.ok = true := by decide +kernel

/-- The states built above meet the invariant. -/
theorem inv_build {s : State} (hc : s.cfg = Config.reference) (ht : s.tcp.length = 8) (hu : s.udp.length = 4)
    (hb : ∃ l : List Byte, l.length ≤ 1500 ∧ s.buf = cells 14 l) (hs : ∃ l : List Byte, l.length ≤ 100 ∧ s.snd = cells 0x100 l)
    (hf : s.faultBit = false ∧ s.fcode = 0) (hn : s.scan.toNat < 12) : s.Inv := by
  obtain ⟨l, hl, hb⟩ := hb
  obtain ⟨m, hm, hs⟩ := hs
  refine ⟨by rw [hc]; exact reference_ok, by rw [hc]; exact ht, by rw [hc]; exact hu, ⟨?_, ?_, ?_, ?_⟩, ⟨fun _ => hf.2, ?_⟩, fun _ => ?_⟩
  · rw [hb]; exact cells_wf l 14
  · rw [hb, hc]
    exact fun c h => lt_of_lt_of_le (cells_bound l 14 c h).2 (show 14 + l.length ≤ 1500 + 14 by omega)
  · rw [hs]; exact cells_wf m 0x100
  · rw [hs, hc]
    exact fun c h => lt_of_lt_of_le (cells_bound m 0x100 c h).2 (show 0x100 + m.length ≤ 4096 by omega)
  · rw [hf.1]; exact fun h => by cases h
  · rw [hc]; exact hn

theorem inv_reset : State.reset.Inv :=
  inv_build rfl rfl rfl ⟨[], by decide, rfl⟩ ⟨[], by decide, rfl⟩ ⟨rfl, rfl⟩ (by decide)
theorem inv_udpFrame : udpFrame.Inv :=
  inv_build rfl rfl rfl ⟨fUdp, by decide, rfl⟩ ⟨[], by decide, rfl⟩ ⟨rfl, rfl⟩ (by decide)
theorem inv_synFrame : synFrame.Inv :=
  inv_build rfl rfl rfl ⟨fSyn, by decide, rfl⟩ ⟨[], by decide, rfl⟩ ⟨rfl, rfl⟩ (by decide)
theorem inv_sender : sender.Inv :=
  inv_build rfl rfl rfl ⟨[], by decide, rfl⟩ ⟨[0x68, 0x65, 0x6c, 0x6c, 0x6f], by decide, rfl⟩ ⟨rfl, rfl⟩ (by decide)

/-- A faulted block. -/
def faultedBlock : State := { State.reset with faultBit := true, fcode := 4 }

theorem test_meets_DecodeOfEncodeGivesTheCommand :
    Instr.wf true (.udpPoll 255) = true ∧ Instr.wf false (.tcpPoll 0) = true := by decide

/-- The first and last words at which the clauses of 30_encoding.md R85 meet. -/
theorem test_meets_DecodingFollowsTheSteps :
    decode true 0x00010000 = .error .reservedBits ∧ decode true 0x0000FF05 = .error .unknownOpc ∧
    decode false 0x0000FF21 = .error .udpAbsent ∧ decode true 0x00000111 = .error .slotOnSlotless ∧
    decode true 0x0000FF21 = .ok (.udpPoll 255) ∧ decode false 0x0000FF12 = .ok (.evPoll 255) ∧
    decode false 0x00000004 = .ok .udpcsum := by decide

theorem test_meets_StepRunsTheDecodedCommand :
    State.reset.faultBit = false ∧ decode State.reset.cfg.udpEn 0x00000320 = .ok (.tcpPoll 3) := by decide

theorem test_meets_IllegalWordOnlySetsStatus :
    State.reset.faultBit = false ∧ decode State.reset.cfg.udpEn 0x00000030 = .error .unknownOpc := by decide

theorem test_meets_FaultedBlockIgnoresCommands : faultedBlock.faultBit = true := by decide

theorem test_meets_OnlyResetLeavesTheFault : faultedBlock.faultBit = true ∧ HostOp.overlap 0x10 0 ≠ .reset ∧
    ∃ t, step (doing (.overlap 0x10 0) faultedBlock) = .next t := ⟨rfl, by decide, _, rfl⟩

/-- A command that may make requests and finds none to make, one that never makes any, and one that makes one. -/
theorem test_meets_OverlappingCommandIsReentry :
    State.reset.cfg.ok = true ∧ State.reset.faultBit = false ∧ decode State.reset.cfg.udpEn 0x00000011 = .ok .evTimer ∧
    decode State.reset.cfg.udpEn 0x00000000 = .ok .acc32 ∧ ¬ ofPacketUnits .acc32 ∧
    (after (exec .evTimer State.reset)).requests = State.reset.requests ∧
    (after (exec (.udpPoll 0) { sender with answers := [.nothing] })).requests ≠ sender.requests :=
  ⟨reference_ok, by decide, by decide, by decide, by unfold ofPacketUnits; decide, by decide +kernel, by decide +kernel⟩

/-- An offset for each way of naming nothing, at the boundary. -/
theorem test_meets_OtherAccessesDoNothing :
    (bufSize State.reset.cfg ≤ (0x005EA : BitVec 17).toNat ∧ (0x0FFFF : BitVec 17).toNat < 0x10000) ∧
    (0x10000 ≤ (0x10008 : BitVec 17).toNat ∧ Width.half ≠ Width.word ∧ Width.wide ≠ Width.word) ∧
    (0x10000 ≤ (0x10001 : BitVec 17).toNat ∧ (0x10001 : BitVec 17).toNat % 4 ≠ 0) ∧
    (0x10034 ≤ (0x10034 : BitVec 17).toNat ∧ (0x10FFC : BitVec 17).toNat < 0x11000) ∧
    (0x11000 + 32 * State.reset.cfg.nTcp ≤ (0x11100 : BitVec 17).toNat ∧ (0x12FFC : BitVec 17).toNat < 0x13000) ∧
    (0x13000 ≤ (0x13000 : BitVec 17).toNat ∧ { Config.reference with udpEn := false, nUdp := 0 }.udpEn = false) ∧
    0x13000 + 32 * State.reset.cfg.nUdp ≤ (0x13080 : BitVec 17).toNat ∧ 0x15000 ≤ (0x1FFFC : BitVec 17).toNat ∧
    (0x11000 ≤ (0x11014 : BitVec 17).toNat ∧ 20 ≤ (0x11014 : BitVec 17).toNat % 32) ∧
    (0x13000 ≤ (0x13010 : BitVec 17).toNat ∧ 16 ≤ (0x13010 : BitVec 17).toNat % 32) := by decide

theorem test_meets_TcpSlotWordsHoldTheFields :
    State.reset.Inv ∧ (7 < State.reset.cfg.nTcp ∧ 7 < 8) ∧ (0 < State.reset.cfg.nTcp ∧ 3 < 8) :=
  ⟨inv_reset, by decide, by decide⟩

theorem test_meets_UdpSlotWordsHoldTheFields :
    State.reset.Inv ∧ State.reset.cfg.udpEn = true ∧ (3 < State.reset.cfg.nUdp ∧ 7 < 8) ∧ (0 < State.reset.cfg.nUdp ∧ 3 < 8) :=
  ⟨inv_reset, by decide, by decide, by decide⟩

/-- The last byte of each region and the first address beyond it. -/
theorem test_meets_HostBytesReadBack : (1513 < 0x10000 ∧ 1513 < bufSize State.reset.cfg) ∧
    (1514 < 0x10000 ∧ bufSize State.reset.cfg ≤ 1514) ∧ bufSize State.reset.cfg ≤ 0xFFFF ∧
    (4095 : Word).toNat < State.reset.cfg.sndSize ∧ State.reset.cfg.sndSize ≤ (4096 : Word).toNat := by decide

theorem test_meets_FoldFactsHold : ([0x12, 0x34] : List Byte).length % 2 = 0 := by decide

theorem test_meets_RoundTripChecksumLaw : ([0x45, 0x00] : List Byte).length % 2 = 0 := by decide

theorem test_meets_AccumulateAddsModulo :
    ∃ s r : State, (s.acc32 = 0xFFFFFFFF ∧ s.op16 = 1) ∧ r.op16 = 0 :=
  ⟨{ State.reset with acc32 := 0xFFFFFFFF, op16 := 1 }, State.reset, by decide, by decide⟩

/-- The last range inside the buffer and the first outside it. -/
theorem test_meets_IcsumSumsTheRange : ∃ s r : State, s.csbase.toNat + s.cslen.toNat ≤ bufSize s.cfg ∧
    bufSize r.cfg < r.csbase.toNat + r.cslen.toNat :=
  ⟨{ State.reset with csbase := 1509, cslen := 5 }, { State.reset with csbase := 1514, cslen := 1 }, by decide, by decide⟩

theorem test_meets_IcsumCornerCases :
    (∃ s : State, s.cslen = 0 ∧ s.csbase.toNat ≤ bufSize s.cfg) ∧
    (∃ s : State, s.csbase.toNat + 3 ≤ bufSize s.cfg ∧ s.cslen = 3 ∧ s.bufByte s.csbase.toNat = 0x00 ∧
      s.bufByte (s.csbase.toNat + 1) = 0x01 ∧ s.bufByte (s.csbase.toNat + 2) = 0xF2) ∧
    (∃ s : State, s.csbase.toNat + 1 ≤ bufSize s.cfg ∧ s.cslen = 1 ∧ s.bufByte s.csbase.toNat = 0xFF) ∧
    (∃ (s : State) (base : Half), base ≠ s.csbase ∧ s.csbase.toNat + s.cslen.toNat ≤ bufSize s.cfg ∧
      base.toNat + s.cslen.toNat ≤ bufSize s.cfg ∧
      ∀ i, i < s.cslen.toNat → s.bufByte (base.toNat + i) = s.bufByte (s.csbase.toNat + i)) ∧
    (∃ s : State, s.Inv ∧ s.csbase = 0xFFFF ∧ s.cslen = 0xFFFF) :=
  ⟨⟨{ State.reset with csbase := 1514 }, by decide, by decide⟩,
    ⟨{ frame [0x00, 0x01, 0xF2] with csbase := 14, cslen := 3 }, by decide⟩,
    ⟨{ frame [0xFF] with csbase := 14, cslen := 1 }, by decide⟩,
    ⟨{ frame [0x12, 0x12] with csbase := 14, cslen := 1 }, 15, by decide, by decide, by decide, by decide⟩,
    ⟨{ State.reset with csbase := 0xFFFF, cslen := 0xFFFF }, inv_build rfl rfl rfl ⟨[], by decide, rfl⟩ ⟨[], by decide, rfl⟩ ⟨rfl, rfl⟩ (by decide), by decide, by decide⟩⟩

/-- The shortest view that is enough, and one byte less. -/
theorem test_meets_UpperChecksumsSumTheSegment :
    (viewOk (frame fSyn) = true ∧ 20 ≤ totalLength (frame fSyn) ∧ 14 + totalLength (frame fSyn) ≤ (frame fSyn).length.toNat) ∧
    ¬ (14 + totalLength (frame fSyn) ≤ ({ frame fSyn with length := 53 } : State).length.toNat) := by decide

theorem test_meets_LogicalPacketIsTheTwoRegions : (frame fSyn).sndlen = 0 ∧ sender.sndlen ≠ 0 := by decide

/-- Without a split, with one that begins after the IP header, and with one inside it that repeats the bytes of `buf`. -/
theorem test_meets_SplitViewEqualsContiguousCopy :
    (viewOk (frame fSyn) = true ∧ (frame fSyn).sndlen = 0) ∧
    (∃ s : State, viewOk s = true ∧ s.sndlen ≠ 0 ∧ hdr s + 20 ≤ s.appdata.toNat ∧ s.appdata < s.length) ∧
    (∃ s : State, viewOk s = true ∧ s.sndlen ≠ 0 ∧ s.appdata.toNat < hdr s + 20 ∧ hdr s + 20 ≤ s.length.toNat ∧
      ∀ j, j < 20 → (j = 2 ∨ j = 3 ∨ 12 ≤ j) → logicalByte s (hdr s + j) = s.bufByte (hdr s + j)) :=
  ⟨by decide, ⟨{ sender with length := 47, appdata := 42 }, by decide⟩,
    ⟨{ frame fUdp with snd := cells 0 (fUdp.drop 18), sndlen := 15, appdata := 32 }, by decide +kernel⟩⟩

/-- A byte of `buf` beyond its end changes no byte inside it. -/
theorem test_meets_ChecksumReadsStayInBounds : ∃ s t : State, ¬ ofPacketUnits .icsum ∧ s.cfg.ok = true ∧
    agreeInBounds s t ∧ s ≠ t := by
  refine ⟨State.reset, State.reset.storeBuf 1514 1, by unfold ofPacketUnits; decide, reference_ok, ⟨rfl, fun a ha => ?_, fun a _ => rfl⟩,
    by decide +kernel⟩
  have h : bufSize State.reset.cfg = 1514 := by decide
  rw [State.bufByte_storeBuf, if_neg (by omega)]

theorem test_meets_OverlongFrameFaults : bufSize State.reset.cfg < ({ State.reset with length := 1515 } : State).length.toNat := by
  decide

theorem udpFrame_inbound : inboundUdp udpFrame := by
  unfold inboundUdp ipGood isTcp isUdp udpGood; decide +kernel

theorem synFrame_inbound : inboundTcp synFrame := by
  unfold inboundTcp ipGood isTcp tcpGood; decide +kernel

/-- A frame dropped for each of the four reasons, and one with no slot. -/
theorem test_meets_DropsAreSilent :
    ¬ ipGood { udpFrame with length := 33 } ∧
    (∃ s : State, s.length.toNat ≤ bufSize s.cfg ∧ ¬ isTcp s ∧ ¬ isUdp s) ∧
    (∃ s : State, s.length.toNat ≤ bufSize s.cfg ∧ isTcp s ∧ ¬ tcpGood s) ∧
    (∃ s : State, s.length.toNat ≤ bufSize s.cfg ∧ ¬ isTcp s ∧ isUdp s ∧ ¬ udpGood s) ∧
    ∃ s : State, s.Inv ∧ inboundUdp s ∧ ∀ k, k < s.cfg.nUdp → ¬ udpHit s k := by
  refine ⟨by unfold ipGood; decide +kernel,
    ⟨udpFrame.storeBuf 23 1, by unfold isTcp isUdp; decide +kernel⟩,
    ⟨udpFrame.storeBuf 23 6, by unfold isTcp tcpGood; decide +kernel⟩,
    ⟨udpFrame.storeBuf 39 12, by unfold isTcp isUdp udpGood; decide +kernel⟩,
    ⟨{ frame fUdp with sndlen := 7 }, inv_build rfl rfl rfl ⟨fUdp, by decide, rfl⟩ ⟨[], by decide, rfl⟩ ⟨rfl, rfl⟩ (by decide), ?_, ?_⟩⟩
  · unfold inboundUdp ipGood isTcp isUdp udpGood; decide +kernel
  · unfold udpHit identity; decide +kernel

theorem test_meets_MalformedInputLeavesTheTables :
    ({ udpFrame with length := 33 } : State).length.toNat < hdr udpFrame + 20 ∧
    ((udpFrame.storeBuf 14 0x65).bufByte (hdr udpFrame)).toNat / 16 ≠ 4 ∧
    csum16 ((List.range 20).map (fun j => (udpFrame.storeBuf 24 0).bufByte (hdr udpFrame + j))) ≠ 0 := by decide +kernel

/-- With an answer that can be finalised and with one that cannot. -/
theorem test_meets_SegmentGoesToItsConnection (a : PbeAnswer) (ha : a = .nothing ∨ a = badAnswer) :
    (synForPeer a).Inv ∧ inboundTcp (synForPeer a) ∧ 0 < (synForPeer a).cfg.nTcp ∧ tcpHit (synForPeer a) 0 ∧
    ∀ j, j < 0 → ¬ tcpHit (synForPeer a) j := by
  rcases ha with rfl | rfl <;>
    exact ⟨inv_build rfl rfl rfl ⟨fSyn, by decide, rfl⟩ ⟨[], by decide, rfl⟩ ⟨rfl, rfl⟩ (by decide), by unfold inboundTcp ipGood isTcp tcpGood; decide +kernel, by decide,
      by unfold tcpHit identity; decide +kernel, fun j h => absurd h (Nat.not_lt_zero j)⟩

theorem test_meets_UnmatchedSegmentIsOfferedAFreeSlot :
    synFrame.Inv ∧ inboundTcp synFrame ∧ (∀ k, k < synFrame.cfg.nTcp → ¬ tcpHit synFrame k) ∧ 0 < synFrame.cfg.nTcp ∧
    (synFrame.tcpSlot 0).active = false ∧ (∀ j, j < 0 → (synFrame.tcpSlot j).active = true) ∧
    tcpAnswered (pbe .segNew 0 (acceptedTcp synFrame)) ∧
    ¬ tcpAnswered (pbe .segNew 0 (acceptedTcp { synFrame with answers := [badAnswer] })) :=
  ⟨inv_synFrame, synFrame_inbound, by unfold tcpHit identity; decide +kernel, by decide, by decide,
    fun j h => absurd h (Nat.not_lt_zero j), by unfold tcpAnswered; decide +kernel, by unfold tcpAnswered; decide +kernel⟩

/-- V4.34, in a table of eight. -/
def fullTable : State :=
  { synFrame with tcp := List.replicate 8 { peer 0 0 0 0 with rport := 1 }, answers := [.nothing] }

theorem test_meets_UnmatchedSegmentIsRejectedWhenFull :
    fullTable.Inv ∧ inboundTcp fullTable ∧ (∀ k, k < fullTable.cfg.nTcp → ¬ tcpHit fullTable k) ∧
    (∀ k, k < fullTable.cfg.nTcp → (fullTable.tcpSlot k).active = true) ∧
    tcpAnswered (pbe .segReject 0 (acceptedTcp fullTable)) ∧
    ¬ tcpAnswered (pbe .segReject 0 (acceptedTcp { fullTable with answers := [badAnswer] })) :=
  ⟨inv_build rfl rfl rfl ⟨fSyn, by decide, rfl⟩ ⟨[], by decide, rfl⟩ ⟨rfl, rfl⟩ (by decide), by unfold inboundTcp ipGood isTcp tcpGood; decide +kernel,
    by unfold tcpHit identity; decide +kernel, by decide +kernel, by unfold tcpAnswered; decide +kernel,
    by unfold tcpAnswered; decide +kernel⟩

/-- No reply, the largest reply that fits, and one byte more. -/
theorem test_meets_DatagramGoesToItsSlot :
    udpFrame.Inv ∧ inboundUdp udpFrame ∧ 1 < udpFrame.cfg.nUdp ∧ udpHit udpFrame 1 ∧ (∀ j, j < 1 → ¬ udpHit udpFrame j) ∧
    payload (pbe .udpIn 1 (acceptedUdp udpFrame)) = 0 ∧
    payloadFits (pbe .udpIn 1 (acceptedUdp { udpFrame with answers := [payloadAnswer 1472] })) ∧
    ¬ payloadFits (pbe .udpIn 1 (acceptedUdp { udpFrame with answers := [payloadAnswer 1473] })) :=
  ⟨inv_udpFrame, udpFrame_inbound, by decide, by unfold udpHit identity; decide +kernel, by unfold udpHit identity; decide +kernel,
    by decide +kernel, by unfold payloadFits; decide +kernel, by unfold payloadFits; decide +kernel⟩

theorem test_meets_FinishedSegmentVerifies : (frame fSyn).cfg.ok = true ∧ (frame fSyn).length ≠ 0 ∧ tcpAnswered (frame fSyn) :=
  ⟨reference_ok, by decide, by unfold tcpAnswered; decide +kernel⟩

theorem test_meets_FinishedDatagramVerifies :
    sender.cfg.ok = true ∧ payload sender ≠ 0 ∧ payloadFits sender ∧ sender.cfg.udpZeroAsFfff = true :=
  ⟨reference_ok, by decide, by unfold payloadFits; decide, by decide⟩

/-- The first slot outside each table, and a tick that ends. -/
theorem test_meets_SlotRangeIsCheckedFirst : State.reset.cfg.nTcp ≤ (8 : Byte).toNat ∧ State.reset.cfg.nUdp ≤ (4 : Byte).toNat ∧
    State.reset.Inv ∧ State.reset.faultBit = false ∧ ∃ t, exec .evTimer State.reset = .next t :=
  ⟨by decide, by decide, inv_reset, rfl, _, rfl⟩

/-- The last slot of each table. -/
theorem test_meets_InactiveSlotPollIsANoOp :
    ((7 : Byte).toNat < State.reset.cfg.nTcp ∧ (State.reset.tcpSlot 7).active = false) ∧
    ((3 : Byte).toNat < State.reset.cfg.nUdp ∧ (State.reset.udpSlot 3).active = false) := by decide

/-- An active slot with no timer about to expire, asked for pending data: nothing, a segment, a bad answer. -/
theorem polled_meets (t : TcpSlot) (a : List PbeAnswer) (ht : t.active = true) :
    (polled t a).Inv ∧ liveTcp (polled t a) (0 : Byte).toNat :=
  ⟨inv_build rfl rfl rfl ⟨[], by decide, rfl⟩ ⟨[], by decide, rfl⟩ ⟨rfl, rfl⟩ (show (0 : BitVec 10).toNat < 12 by decide), show 0 < 8 by decide, ht⟩

theorem test_meets_EvPollServesPendingSend (a : List PbeAnswer) :
    (polled (peer 0 0 0 0) a).Inv ∧ liveTcp (polled (peer 0 0 0 0) a) (0 : Byte).toNat ∧
    tcpAnswered (pbe .pollSend 0 (emptied (polled (peer 0 0 0 0) [answerSegment 0x10 none]))) ∧
    ¬ tcpAnswered (pbe .pollSend 0 (emptied (polled (peer 0 0 0 0) [badAnswer]))) :=
  ⟨(polled_meets _ a rfl).1, (polled_meets _ a rfl).2, by unfold tcpAnswered; decide +kernel, by unfold tcpAnswered; decide +kernel⟩

/-- Both timers one tick before the last, and both stopped. -/
theorem test_meets_TcpPollServesPendingSend (n : Half) (h : n = 2 ∨ n = 0) (a : List PbeAnswer) :
    (polled (peer n 0 n 0) a).Inv ∧ liveTcp (polled (peer n 0 n 0) a) (0 : Byte).toNat ∧
    ((polled (peer n 0 n 0) a).tcpSlot 0).rtxTimer ≠ 1 ∧ ((polled (peer n 0 n 0) a).tcpSlot 0).kaTimer ≠ 1 :=
  have hn : n ≠ 1 := by rcases h with rfl | rfl <;> decide
  ⟨(polled_meets _ a rfl).1, (polled_meets _ a rfl).2, hn, hn⟩

/-- The last retransmission before the bound, alone and with a keepalive expiry. -/
theorem test_meets_TcpPollRetransmits (n : Half) (a : List PbeAnswer) :
    (polled (peer 1 1 n 0) a).Inv ∧ liveTcp (polled (peer 1 1 n 0) a) (0 : Byte).toNat ∧
    ((polled (peer 1 1 n 0) a).tcpSlot 0).rtxTimer = 1 ∧
    ((polled (peer 1 1 n 0) a).tcpSlot 0).rtxCount.toNat < (polled (peer 1 1 n 0) a).cfg.maxRtx.toNat :=
  ⟨(polled_meets _ a rfl).1, (polled_meets _ a rfl).2, rfl, show (1 : Byte).toNat < (2 : Byte).toNat by decide⟩

/-- The last probe before the bound. -/
theorem test_meets_TcpPollProbes (a : List PbeAnswer) :
    (polled (peer 2 0 1 1) a).Inv ∧ liveTcp (polled (peer 2 0 1 1) a) (0 : Byte).toNat ∧
    ((polled (peer 2 0 1 1) a).tcpSlot 0).rtxTimer ≠ 1 ∧ ((polled (peer 2 0 1 1) a).tcpSlot 0).kaTimer = 1 ∧
    ((polled (peer 2 0 1 1) a).tcpSlot 0).kaCount.toNat < (polled (peer 2 0 1 1) a).cfg.maxKa.toNat :=
  ⟨(polled_meets _ a rfl).1, (polled_meets _ a rfl).2, show (2 : Half) ≠ 1 by decide, rfl, show (1 : Byte).toNat < (2 : Byte).toNat by decide⟩

/-- Each bound just reached. -/
theorem test_meets_TcpPollTearsDownAtTheBound :
    ((polled (peer 1 2 1 0) [badAnswer]).Inv ∧ liveTcp (polled (peer 1 2 1 0) [badAnswer]) 0 ∧
      (peer 1 2 1 0).rtxTimer = 1 ∧ (polled (peer 1 2 1 0) []).cfg.maxRtx.toNat ≤ (peer 1 2 1 0).rtxCount.toNat) ∧
    ((polled (peer 2 0 1 2) [.nothing]).Inv ∧ liveTcp (polled (peer 2 0 1 2) [.nothing]) 0 ∧
      (peer 2 0 1 2).rtxTimer ≠ 1 ∧ (peer 2 0 1 2).kaTimer = 1 ∧
      (polled (peer 2 0 1 2) []).cfg.maxKa.toNat ≤ (peer 2 0 1 2).kaCount.toNat) :=
  ⟨⟨(polled_meets _ _ rfl).1, (polled_meets _ _ rfl).2, by decide⟩, ⟨(polled_meets _ _ rfl).1, (polled_meets _ _ rfl).2, by decide⟩⟩

theorem sender_live : liveUdp sender (0 : Byte).toNat := by unfold liveUdp; decide

/-- No payload, the largest that fits, and one byte more. -/
theorem test_meets_UdpPollOffersAChanceToSend : sender.Inv ∧ liveUdp sender (0 : Byte).toNat ∧
    payload (pbe .udpPoll 0 (emptied { sender with answers := [.nothing] })) = 0 ∧
    payloadFits (pbe .udpPoll 0 (emptied { sender with answers := [payloadAnswer 1472] })) ∧
    ¬ payloadFits (pbe .udpPoll 0 (emptied { sender with answers := [payloadAnswer 1473] })) :=
  ⟨inv_sender, sender_live, by decide +kernel, by unfold payloadFits; decide +kernel, by unfold payloadFits; decide +kernel⟩

/-- V4.40, V4.42 and V4.44. -/
theorem test_meets_UdpSendBuildsTheDatagram : sender.Inv ∧ liveUdp sender (0 : Byte).toNat ∧
    (payload sender ≠ 0 ∧ payloadFits sender) ∧
    (∃ s : State, s.Inv ∧ liveUdp s 0 ∧ s.sndlen = 0 ∧ s.length.toNat ≤ hdr s + 28) ∧
    (∃ s : State, s.Inv ∧ liveUdp s 0 ∧ payload s ≠ 0 ∧ ¬ payloadFits s) := by
  refine ⟨inv_sender, sender_live, by unfold payloadFits; decide, ⟨{ sender with sndlen := 0, length := 42 }, ?_⟩,
    ⟨{ sender with sndlen := 1473 }, ?_⟩⟩
  · exact ⟨inv_build rfl rfl rfl ⟨[], by decide, rfl⟩ ⟨[0x68, 0x65, 0x6c, 0x6c, 0x6f], by decide, rfl⟩ ⟨rfl, rfl⟩ (by decide), sender_live, by decide, by decide⟩
  · exact ⟨inv_build rfl rfl rfl ⟨[], by decide, rfl⟩ ⟨[0x68, 0x65, 0x6c, 0x6c, 0x6f], by decide, rfl⟩ ⟨rfl, rfl⟩ (by decide), sender_live, by decide, by unfold payloadFits; decide +kernel⟩

/-- A tick half done with nothing left to poll. -/
theorem test_meets_IdleTickEndsInOneCommand : ∃ s : State, s.Inv ∧ s.scan.toNat < totalSlots s.cfg ∧
    ∀ n, s.scan.toNat ≤ n → n < totalSlots s.cfg → scanIdle s n := by
  refine ⟨{ polled (peer 1 0 0 0) [] with scan := 1 }, inv_build rfl rfl rfl ⟨[], by decide, rfl⟩ ⟨[], by decide, rfl⟩ ⟨rfl, rfl⟩ (by decide), by decide, ?_⟩
  have h : ∀ n, n < 12 → 1 ≤ n → scanIdle { polled (peer 1 0 0 0) [] with scan := 1 } n := by unfold scanIdle; decide +kernel
  exact fun n h1 h2 => h n h2 h1

/-- The retransmission of slot 0 is the packet, and slot 0's answer cannot be finalised. -/
theorem test_meets_TimerStopsAtThePacketOrFault :
    (∃ s t : State, s.Inv ∧ s.scan.toNat ≤ 0 ∧ 0 < totalSlots s.cfg ∧ exec (pollCommand s 0) s = .next t ∧ s.faultBit = false ∧
      t.faultBit = false ∧ t.length ≠ 0) ∧
    (∃ s t : State, s.Inv ∧ s.scan.toNat ≤ 0 ∧ 0 < totalSlots s.cfg ∧ exec (pollCommand s 0) s = .next t ∧ s.faultBit = false ∧
      t.faultBit = true) :=
  ⟨⟨polled (peer 1 0 0 0) [answerSegment 0x10 none], _, (polled_meets _ _ rfl).1, by decide, by decide, rfl, rfl,
      by decide +kernel, by decide +kernel⟩,
    ⟨polled (peer 1 0 0 0) [badAnswer], _, (polled_meets _ _ rfl).1, by decide, by decide, rfl, rfl, by decide +kernel⟩⟩

/-- A quiet poll of slot 0, and of the last slot. -/
theorem test_meets_TimerGoesOnPastAQuietPoll :
    (∃ s t : State, s.Inv ∧ s.scan.toNat + 1 < totalSlots s.cfg ∧
      exec (pollCommand s s.scan.toNat) s = .next t ∧ t.faultBit = false ∧ s.faultBit = false ∧ t.length = 0) ∧
    (∃ s t : State, s.Inv ∧ s.scan.toNat + 1 = totalSlots s.cfg ∧ liveUdp s 3 ∧
      exec (pollCommand s s.scan.toNat) s = .next t ∧ t.faultBit = false ∧ s.faultBit = false ∧ t.length = 0) :=
  ⟨⟨polled (peer 2 0 0 0) [.nothing], _, (polled_meets _ _ rfl).1, by decide, rfl, by decide +kernel, rfl, by decide +kernel⟩,
    ⟨{ State.reset with udp := List.replicate 4 receiver, scan := 11, answers := [.nothing] }, _,
      inv_build rfl rfl rfl ⟨[], by decide, rfl⟩ ⟨[], by decide, rfl⟩ ⟨rfl, rfl⟩ (by decide), by decide, by unfold liveUdp; decide, rfl,
      by decide +kernel, rfl, by decide +kernel⟩⟩

theorem test_meets_TimerTickEqualsTheExplicitLoop :
    (polled (peer 1 0 0 0) [answerSegment 0x10 none]).Inv ∧ (polled (peer 1 0 0 0) [answerSegment 0x10 none]).faultBit = false ∧
    (polled (peer 1 0 0 0) [answerSegment 0x10 none]).scan = 0 := ⟨(polled_meets _ _ rfl).1, rfl, rfl⟩

theorem test_meets_ListedAnswerIsGiven :
    ∃ (s : State) (a : PbeAnswer), s.answers = a :: [] ∧ a.bufWrites = [(1513, 7)] ∧ hdr s ≤ 1513 ∧ 1513 < bufSize s.cfg ∧
      (namesTcp .segIn = true ∧ 7 < s.tcp.length) ∧ namesUdp .udpIn = true ∧ 3 < s.udp.length :=
  ⟨{ State.reset with answers := [{ PbeAnswer.nothing with bufWrites := [(1513, 7)] }] }, _, rfl, rfl, by decide, by decide, by decide,
    by decide, by decide⟩

theorem test_meets_StepKeepsTheInvariant : State.reset.Inv ∧ ∃ t, step (doing (cmdWrite 0x10) State.reset) = .next t :=
  ⟨inv_reset, _, rfl⟩

/-- A command that stores next to the reserve, and the reserve's last byte. -/
theorem test_meets_LinkHeaderIsNeverWritten : sender.cfg.ok = true ∧ (∃ t, exec (.evUdpsend 0) sender = .next t) ∧ 13 < hdr sender :=
  ⟨reference_ok, ⟨_, rfl⟩, by decide⟩

theorem test_meets_PacketCommandsKeepTheirFrame :
    sender.cfg.ok = true ∧ ofPacketUnits (.evUdpsend 0) ∧ (∃ t, exec (.evUdpsend 0) sender = .next t) ∧
    bufSize sender.cfg ≤ 1514 :=
  ⟨reference_ok, by unfold ofPacketUnits; decide, ⟨_, rfl⟩, by decide⟩

theorem test_meets_SlotCommandsTouchOneSlot : State.reset.cfg.ok = true ∧ (∃ t, exec (.tcpPoll 7) State.reset = .next t) ∧
    (∃ t, exec (.udpPoll 3) State.reset = .next t) ∧ (∃ t, exec (.evUdpsend 0) sender = .next t) ∧ 0 ≠ (7 : Byte).toNat :=
  ⟨reference_ok, ⟨_, rfl⟩, ⟨_, rfl⟩, ⟨_, rfl⟩, by decide⟩

theorem test_meets_PollMakesAtMostOneRequest : State.reset.cfg.ok = true ∧
    (∃ t, exec (.tcpPoll 0) (polled (peer 1 2 0 0) [.nothing]) = .next t) ∧ (∃ t, exec (.evUdpsend 0) sender = .next t) :=
  ⟨reference_ok, ⟨_, rfl⟩, ⟨_, rfl⟩⟩

/-- The SYN-ACK of program P5 activates slot 0. -/
theorem test_meets_OnlyTheBackendActivatesASlot : synFrame.Inv ∧ (synFrame.tcpSlot 0).active = false ∧
    ((after (exec .evData synFrame)).tcpSlot 0).active = true ∧ (synFrame.udpSlot 0).active = false :=
  ⟨inv_synFrame, by decide, by decide +kernel, by decide⟩

end Sys2Proof.Tests
end

section
/-! The host's side of the block (10_state.md R42 to R47, 20_memory.md R54): what a window offset names, what one
host access does there, and the words of a slot. -/

namespace Sys2Proof.Machine

open Sys2Proof.Claims

/-! ### One step of a host action -/

theorem step_doing_done {op : HostOp} {s : State} {o : Host.Outcome State Fault Refusal}
    (h : hostAct op s = .done o) : step (doing op s) = o := by
  have hm : hostMove (doing op s) = .done o := h
  rw [step, hm]

theorem step_doing_run {op : HostOp} {s t : State} {i : Instr} (h : hostAct op s = .run i t) :
    step (doing op s) = exec i t := by
  have hm : hostMove (doing op s) = .run i t := h
  rw [step, hm]

theorem hostAct_cmdWrite (w : Word) (s : State) : hostAct (cmdWrite w) s = writeCmd w s := by
  rw [cmdWrite, hostAct, if_pos ⟨rfl, rfl⟩]

theorem step_read (width : Width) (off : BitVec 17) (s : State) :
    step (doing (.read width off) s) = hostRead width off s := step_doing_done rfl

/-- A write anywhere but a word to `CMD` is a write to storage. -/
theorem step_write {width : Width} {off : BitVec 17} (h : ¬ (off = cmdOffset ∧ width = .word)) (v : Word) (s : State) :
    step (doing (.write width off v) s) = hostWrite width off v s :=
  step_doing_done (if_neg h)

/-! ### `CMD` -/

theorem writeCmd_faulted {s : State} (h : s.faultBit = true) (w : Word) : writeCmd w s = .done (.next s) := if_pos h

theorem writeCmd_legal {s : State} {w : Word} {i : Instr} (h : s.faultBit = false)
    (hd : decode s.cfg.udpEn w = .ok i) : writeCmd w s = .run i s := by
  simp [writeCmd, h, hd]

/-- Settles O4: the write is no write to storage, and the decoded command runs. -/
theorem stepRunsTheDecodedCommand : Obligations.StepRunsTheDecodedCommand := by
  intro s w i hf hd
  exact step_doing_run ((hostAct_cmdWrite w s).trans (writeCmd_legal hf hd))

/-- Settles O6: the gate in front of `CMD` is shut while faulted. -/
theorem faultedBlockIgnoresCommands : Obligations.FaultedBlockIgnoresCommands := by
  intro s w hf
  exact step_doing_done ((hostAct_cmdWrite w s).trans (writeCmd_faulted hf w))

/-! ### Reset -/

/-- Settles O8: `resetBlock` field by field. -/
theorem resetActionClearsTheBlock : Obligations.ResetActionClearsTheBlock := by
  intro s
  refine ⟨resetBlock s, step_doing_done rfl, rfl, rfl, rfl, rfl, rfl, rfl, rfl, rfl, rfl, rfl, rfl, rfl, rfl,
    fun k => ?_, ?_, fun k => ?_, ?_, fun _ => rfl, fun _ => rfl, rfl⟩
  · exact List.getD_map s.tcp TcpSlot.zero fun _ => TcpSlot.zero
  · exact List.length_map _
  · exact List.getD_map s.udp UdpSlot.zero fun _ => UdpSlot.zero
  · exact List.length_map _

/-- Settles O9: `State.reset` field by field. -/
theorem resetStateIsAllZero : Obligations.ResetStateIsAllZero :=
  ⟨rfl, rfl, rfl, rfl, rfl, rfl, rfl, rfl, rfl, rfl, rfl, rfl, rfl,
    List.getElem?_getD_replicate_default_eq TcpSlot.zero 8,
    List.getElem?_getD_replicate_default_eq UdpSlot.zero 4,
    fun _ => rfl⟩

/-! ### What an offset names -/

section Place

variable {c : Config} {off k n a r : Nat}

theorem placeOf_lt (h : off < 0x10000) : placeOf c off = if off < bufSize c then .buf off else .reserved := if_pos h

theorem placeOf_reg (h : r < 0x100) : placeOf c (0x10000 + r) = .reg r := by
  unfold placeOf
  rw [if_neg (by omega), if_pos (by omega), Nat.add_sub_cancel_left]

theorem placeOf_tcp (hk : k < c.nTcp) (hk' : k < 256) (hn : n < 8) :
    placeOf c (0x11000 + 32 * k + 4 * n) = .tcp k n := by
  have hslot : (0x11000 + 32 * k + 4 * n - 0x11000) / 32 = k := by omega
  have hword : (0x11000 + 32 * k + 4 * n - 0x11000) % 32 / 4 = n := by omega
  unfold placeOf
  rw [if_neg (by omega), if_neg (by omega), if_neg (by omega), if_pos (by omega), hslot, hword, if_pos hk]

theorem placeOf_udp (hu : c.udpEn = true) (hk : k < c.nUdp) (hk' : k < 256) (hn : n < 8) :
    placeOf c (0x13000 + 32 * k + 4 * n) = .udp k n := by
  have hslot : (0x13000 + 32 * k + 4 * n - 0x13000) / 32 = k := by omega
  have hword : (0x13000 + 32 * k + 4 * n - 0x13000) % 32 / 4 = n := by omega
  unfold placeOf
  rw [if_neg (by omega), if_neg (by omega), if_neg (by omega), if_neg (by omega), if_pos (by omega), hslot, hword,
    if_pos ⟨hu, hk⟩]

theorem eq_of_placeOf_buf (h : placeOf c off = .buf a) : a = off ∧ off < 0x10000 ∧ off < bufSize c := by
  unfold placeOf at h
  split_ifs at h with h1 h2
  cases h
  exact ⟨rfl, h1, h2⟩

theorem eq_of_placeOf_reg (h : placeOf c off = .reg r) : off = 0x10000 + r ∧ r < 0x100 := by
  unfold placeOf at h
  split_ifs at h
  have hr := Place.reg.inj h
  omega

theorem eq_of_placeOf_tcp (h : placeOf c off = .tcp k n) :
    0x11000 ≤ off ∧ off < 0x13000 ∧ k < c.nTcp ∧ off = 0x11000 + 32 * k + off % 32 ∧ n = off % 32 / 4 := by
  unfold placeOf at h
  split_ifs at h
  cases h
  omega

theorem eq_of_placeOf_udp (h : placeOf c off = .udp k n) :
    0x13000 ≤ off ∧ off < 0x15000 ∧ c.udpEn = true ∧ k < c.nUdp ∧ off = 0x13000 + 32 * k + off % 32 ∧
      n = off % 32 / 4 := by
  unfold placeOf at h
  split_ifs at h with _ _ _ _ _ _ _ hslot
  cases h
  obtain ⟨hu, hk⟩ := hslot
  exact ⟨by omega, by omega, hu, hk, by omega, by omega⟩

end Place

/-! ### One access at a place -/

section Access

variable {s : State} {width : Width} {off : BitVec 17} {r k n : Nat}

theorem hostRead_reg (h : placeOf s.cfg off.toNat = .reg r) :
    hostRead width off s = .next (s.setRdata (if wordAccess width off then readReg s r else 0)) := by
  simp only [hostRead, h]

theorem hostRead_tcp (h : placeOf s.cfg off.toNat = .tcp k n) :
    hostRead width off s = .next (s.setRdata (if wordAccess width off then tcpWord (s.tcpSlot k) n else 0)) := by
  simp only [hostRead, h]

theorem hostRead_udp (h : placeOf s.cfg off.toNat = .udp k n) :
    hostRead width off s = .next (s.setRdata (if wordAccess width off then udpWord (s.udpSlot k) n else 0)) := by
  simp only [hostRead, h]

theorem hostRead_reserved (h : placeOf s.cfg off.toNat = .reserved) :
    hostRead width off s = .next (s.setRdata 0) := by
  simp only [hostRead, h]

theorem hostWrite_reg (h : placeOf s.cfg off.toNat = .reg r) (v : Word) :
    hostWrite width off v s = .next (if wordAccess width off then writeReg s r v else s) := by
  simp only [hostWrite, h]

theorem hostWrite_tcp (h : placeOf s.cfg off.toNat = .tcp k n) (v : Word) :
    hostWrite width off v s =
      .next (if wordAccess width off then s.setTcp k (tcpWriteWord (s.tcpSlot k) n v) else s) := by
  simp only [hostWrite, h]

theorem hostWrite_udp (h : placeOf s.cfg off.toNat = .udp k n) (v : Word) :
    hostWrite width off v s =
      .next (if wordAccess width off then s.setUdp k (udpWriteWord (s.udpSlot k) n v) else s) := by
  simp only [hostWrite, h]

theorem hostWrite_reserved (h : placeOf s.cfg off.toNat = .reserved) (v : Word) :
    hostWrite width off v s = .next s := by
  simp only [hostWrite, h]

theorem wordAccess_iff : wordAccess width off = true ↔ width = .word ∧ off.toNat % 4 = 0 := by
  simp [wordAccess]

end Access

/-! ### Registers -/

section Registers

variable {r : BitVec 17}

theorem regOffset_toNat (h : r.toNat < 0x100) : (0x10000 + r).toNat = 0x10000 + r.toNat := by
  bv_omega

theorem not_cmd_of_regOffset {width : Width} (h0 : r.toNat ≠ 0) (h : r.toNat < 0x100) :
    ¬ (0x10000 + r = cmdOffset ∧ width = .word) := by
  rintro ⟨e, -⟩
  have he := congrArg BitVec.toNat e
  rw [regOffset_toNat h] at he
  exact h0 (by simpa [cmdOffset] using he)

theorem placeOf_regOffset (c : Config) (h : r.toNat < 0x100) : placeOf c (0x10000 + r).toNat = .reg r.toNat := by
  rw [regOffset_toNat h, placeOf_reg h]

theorem wordAccess_regOffset (h : r.toNat < 0x100) (h4 : r.toNat % 4 = 0) :
    wordAccess .word (0x10000 + r) = true :=
  wordAccess_iff.2 ⟨rfl, by rw [regOffset_toNat h]; omega⟩

theorem step_regRead (s : State) (h : r.toNat < 0x100) (h4 : r.toNat % 4 = 0) :
    step (doing (regRead r) s) = .next (s.setRdata (readReg s r.toNat)) := by
  rw [regRead, step_read, hostRead_reg (placeOf_regOffset s.cfg h), if_pos (wordAccess_regOffset h h4)]

theorem step_regWrite (s : State) (v : Word) (h0 : r.toNat ≠ 0) (h : r.toNat < 0x100) (h4 : r.toNat % 4 = 0) :
    step (doing (regWrite r v) s) = .next (writeReg s r.toNat v) := by
  rw [regWrite, step_write (not_cmd_of_regOffset h0 h), hostWrite_reg (placeOf_regOffset s.cfg h),
    if_pos (wordAccess_regOffset h h4)]

theorem readsAs_of_readReg {s : State} {n : Nat} (h : r.toNat < 0x100) (h4 : r.toNat % 4 = 0)
    (e : readReg s r.toNat = BitVec.ofNat 32 n) : readsAs s r n := by
  rw [readsAs, step_regRead s h h4, e]
  rfl

end Registers

/-- Settles O11: each register's arm of the write map. -/
theorem registerWritesStoreTheField : Obligations.RegisterWritesStoreTheField := by
  intro s v
  refine ⟨?_, ?_, ?_, ?_, ?_, ?_, ?_, ?_, ?_⟩ <;> exact step_regWrite s v (by decide) (by decide) (by decide)

/-- Two numbers side by side in one word. -/
theorem toNat_append_eq_add {m n : Nat} (x : BitVec m) (y : BitVec n) :
    (x ++ y).toNat = x.toNat * 2 ^ n + y.toNat := by
  rw [BitVec.toNat_append, ← Nat.shiftLeft_add_eq_or_of_lt y.isLt, Nat.shiftLeft_eq]

theorem toNat_ofBool_eq_ite (b : Bool) : (BitVec.ofBool b).toNat = if b then 1 else 0 := by cases b <;> rfl

/-- `STATUS` as a number (10_state.md R42). -/
theorem statusWord_toNat (s : State) :
    (statusWord s).toNat = (if s.faultBit then 1 else 0) + 256 * s.fcode.toNat := by
  simp only [statusWord, toNat_append_eq_add, toNat_ofBool_eq_ite, BitVec.ofNat_eq_ofNat, BitVec.toNat_ofNat]
  omega

theorem eq_ofNat_of_toNat_eq {w : Word} {n : Nat} (h : w.toNat = n) : w = BitVec.ofNat 32 n := by
  rw [← h, BitVec.ofNat_toNat, BitVec.setWidth_eq]

/-- Settles O12: each register's arm of the read map, zero-extended. -/
theorem registerReadsGiveTheField : Obligations.RegisterReadsGiveTheField := by
  intro s
  refine ⟨?_, ?_, ?_, ?_, ?_, ?_, ?_, ?_, ?_, ?_, ?_, ?_, ?_⟩ <;> refine readsAs_of_readReg (by decide) (by decide) ?_
  case refine_2 => exact eq_ofNat_of_toNat_eq (statusWord_toNat s)
  case refine_5 => exact eq_ofNat_of_toNat_eq rfl
  case refine_10 => exact eq_ofNat_of_toNat_eq rfl
  case refine_1 => rfl
  all_goals exact (BitVec.ofNat_toNat 32 _).symm

/-! ### Accesses that name nothing -/

theorem readReg_of_ge (s : State) {r : Nat} (h : 0x34 ≤ r) : readReg s r = 0 := by
  unfold readReg
  split
  case h_13 => rfl
  all_goals omega

theorem writeReg_of_ge (s : State) {r : Nat} (h : 0x34 ≤ r) (v : Word) : writeReg s r v = s := by
  unfold writeReg
  split
  case h_10 => rfl
  all_goals omega

theorem tcpWord_of_ge (t : TcpSlot) {n : Nat} (h : 5 ≤ n) : tcpWord t n = 0 := by
  unfold tcpWord
  split
  case h_6 => rfl
  all_goals omega

theorem tcpWriteWord_of_ge (t : TcpSlot) {n : Nat} (h : 5 ≤ n) (v : Word) : tcpWriteWord t n v = t := by
  unfold tcpWriteWord
  split
  case h_6 => rfl
  all_goals omega

theorem udpWord_of_ge (u : UdpSlot) {n : Nat} (h : 4 ≤ n) : udpWord u n = 0 := by
  unfold udpWord
  split
  case h_5 => rfl
  all_goals omega

theorem udpWriteWord_of_ge (u : UdpSlot) {n : Nat} (h : 4 ≤ n) (v : Word) : udpWriteWord u n v = u := by
  unfold udpWriteWord
  split
  case h_5 => rfl
  all_goals omega

/-- Storing in a table what it has at that index changes nothing, beyond the table too. -/
theorem set_getD_self {α : Type} (l : List α) (k : Nat) (d : α) : l.set k (l.getD k d) = l := by
  by_cases h : k < l.length
  · rw [List.getD_eq_getElem _ _ h, List.set_getElem_self]
  · exact List.set_eq_of_length_le (by omega)

theorem State.setTcp_self (s : State) (k : Nat) : s.setTcp k (s.tcpSlot k) = s := by
  rw [State.setTcp, State.tcpSlot, set_getD_self]

theorem State.setUdp_self (s : State) (k : Nat) : s.setUdp k (s.udpSlot k) = s := by
  rw [State.setUdp, State.udpSlot, set_getD_self]

section NamesNothing

variable {s : State} {width : Width} {off : BitVec 17} {r k n a : Nat}

theorem not_buf_of_namesNothing (h : namesNothing s width off) : placeOf s.cfg off.toNat ≠ .buf a := by
  intro hp
  obtain ⟨-, hlt, hin⟩ := eq_of_placeOf_buf hp
  unfold namesNothing at h
  omega

theorem reg_of_namesNothing (h : namesNothing s width off) (hp : placeOf s.cfg off.toNat = .reg r)
    (hw : wordAccess width off = true) : 0x34 ≤ r := by
  obtain ⟨hoff, hr⟩ := eq_of_placeOf_reg hp
  obtain ⟨hword, halign⟩ := wordAccess_iff.1 hw
  simp only [namesNothing, hword, ne_eq, not_true_eq_false, false_or] at h
  omega

theorem tcp_of_namesNothing (h : namesNothing s width off) (hp : placeOf s.cfg off.toNat = .tcp k n)
    (hw : wordAccess width off = true) : 5 ≤ n := by
  obtain ⟨hlo, hhi, hk, hoff, hn⟩ := eq_of_placeOf_tcp hp
  obtain ⟨hword, halign⟩ := wordAccess_iff.1 hw
  simp only [namesNothing, hword, ne_eq, not_true_eq_false, false_or] at h
  omega

theorem udp_of_namesNothing (h : namesNothing s width off) (hp : placeOf s.cfg off.toNat = .udp k n)
    (hw : wordAccess width off = true) : 4 ≤ n := by
  obtain ⟨hlo, hhi, hu, hk, hoff, hn⟩ := eq_of_placeOf_udp hp
  obtain ⟨hword, halign⟩ := wordAccess_iff.1 hw
  simp only [namesNothing, hword, hu, ne_eq, not_true_eq_false, false_or, Bool.true_eq_false, and_false] at h
  omega

theorem not_cmd_of_namesNothing (h : namesNothing s width off) : ¬ (off = cmdOffset ∧ width = .word) := by
  rintro ⟨rfl, rfl⟩
  have hoff : (cmdOffset : BitVec 17).toNat = 0x10000 := rfl
  simp only [namesNothing, hoff] at h
  rcases h with h | ⟨-, h⟩ | h | h | h | h | h | h | h
  case inr.inl => simp at h
  all_goals omega

theorem hostRead_of_namesNothing (h : namesNothing s width off) : hostRead width off s = .next (s.setRdata 0) := by
  cases hp : placeOf s.cfg off.toNat with
  | buf a => exact absurd hp (not_buf_of_namesNothing h)
  | reg r =>
    rw [hostRead_reg hp]
    split_ifs with hw
    · rw [readReg_of_ge s (reg_of_namesNothing h hp hw)]
    · rfl
  | tcp k n =>
    rw [hostRead_tcp hp]
    split_ifs with hw
    · rw [tcpWord_of_ge _ (tcp_of_namesNothing h hp hw)]
    · rfl
  | udp k n =>
    rw [hostRead_udp hp]
    split_ifs with hw
    · rw [udpWord_of_ge _ (udp_of_namesNothing h hp hw)]
    · rfl
  | reserved => exact hostRead_reserved hp

theorem hostWrite_of_namesNothing (h : namesNothing s width off) (v : Word) : hostWrite width off v s = .next s := by
  cases hp : placeOf s.cfg off.toNat with
  | buf a => exact absurd hp (not_buf_of_namesNothing h)
  | reg r =>
    rw [hostWrite_reg hp]
    split_ifs with hw
    · rw [writeReg_of_ge s (reg_of_namesNothing h hp hw)]
    · rfl
  | tcp k n =>
    rw [hostWrite_tcp hp]
    split_ifs with hw
    · rw [tcpWriteWord_of_ge _ (tcp_of_namesNothing h hp hw), State.setTcp_self]
    · rfl
  | udp k n =>
    rw [hostWrite_udp hp]
    split_ifs with hw
    · rw [udpWriteWord_of_ge _ (udp_of_namesNothing h hp hw), State.setUdp_self]
    · rfl
  | reserved => exact hostWrite_reserved hp v

theorem step_write_of_namesNothing (h : namesNothing s width off) (v : Word) :
    step (doing (.write width off v) s) = .next s := by
  rw [step_write (not_cmd_of_namesNothing h), hostWrite_of_namesNothing h]

theorem step_read_of_namesNothing (h : namesNothing s width off) :
    step (doing (.read width off) s) = .next (s.setRdata 0) := by
  rw [step_read, hostRead_of_namesNothing h]

/-- A write of any width to a register that takes none changes nothing (10_state.md R42). -/
theorem step_write_readOnly {q : BitVec 17} (h0 : q.toNat ≠ 0) (hq : q.toNat < 0x100) {v : Word}
    (hw : writeReg s q.toNat v = s) : step (doing (.write width (0x10000 + q) v) s) = .next s := by
  rw [step_write (not_cmd_of_regOffset h0 hq), hostWrite_reg (placeOf_regOffset s.cfg hq), hw, ite_self]

end NamesNothing

/-- Settles O13, by the place the offset names: that place has no word there, or the access is no aligned word. -/
theorem otherAccessesDoNothing : Obligations.OtherAccessesDoNothing := by
  intro s width off v
  refine ⟨?_, step_read_of_namesNothing⟩
  rintro (h | rfl | rfl | rfl)
  · exact step_write_of_namesNothing h v
  · exact step_write_readOnly (q := 0x04) (by decide) (by decide) rfl
  · exact step_write_readOnly (q := 0x20) (by decide) (by decide) rfl
  · exact step_write_readOnly (q := 0x2C) (by decide) (by decide) rfl

end Sys2Proof.Machine
end

section
/-! The words of a slot and the bytes of the two regions, as the host reads and writes them
(10_state.md R25, R43, R44). -/

namespace Sys2Proof.Machine

open Sys2Proof.Claims

/-! ### Fields as numbers -/

theorem extractLsb'_eq_ofNat {w : Nat} (v : BitVec w) (start len : Nat) :
    v.extractLsb' start len = BitVec.ofNat len (v.toNat / 2 ^ start) := by
  apply BitVec.eq_of_toNat_eq
  rw [BitVec.extractLsb'_toNat, Nat.shiftRight_eq_div_pow, BitVec.toNat_ofNat]

theorem getLsbD_zero_eq (v : Word) : v.getLsbD 0 = decide (v.toNat % 2 = 1) := Nat.testBit_zero _

/-- The high and the low half of a word, put together again. -/
theorem halves_append (v : Word) : v.extractLsb' 16 16 ++ v.extractLsb' 0 16 = v := by
  apply BitVec.eq_of_toNat_eq
  simp only [toNat_append_eq_add, BitVec.extractLsb'_toNat, Nat.shiftRight_eq_div_pow]
  have := v.isLt
  omega

/-! ### The words of a TCP slot -/

theorem tcpWord_eq_reads (t : TcpSlot) (n : Nat) : tcpWord t n = BitVec.ofNat 32 (tcpSlotReads t n) := by
  unfold tcpWord tcpSlotReads
  split <;> refine eq_ofNat_of_toNat_eq ?_
  case h_6 => simp_all
  all_goals
    simp only [toNat_append_eq_add, toNat_ofBool_eq_ite, reduceIte, OfNat.ofNat_ne_zero, OfNat.ofNat_ne_one,
      Nat.reduceEqDiff, BitVec.ofNat_eq_ofNat, BitVec.toNat_ofNat]
  all_goals omega

theorem tcpWriteWord_eq_stored (t : TcpSlot) (n : Nat) (v : Word) :
    tcpWriteWord t n v = tcpSlotStored t n v.toNat := by
  unfold tcpWriteWord tcpSlotStored
  split
  case h_6 => simp_all
  all_goals simp only [extractLsb'_eq_ofNat, getLsbD_zero_eq]
  all_goals simp

/-- The bits of word `n` of a TCP slot that are not reserved (10_state.md R43). -/
def tcpWordMask (n : Nat) : Word :=
  if n < 3 ∨ n = 4 then 0xFFFFFFFF else if n = 3 then 0x00FFFFF1 else 0

theorem tcpWord_tcpWriteWord_same (t : TcpSlot) {n : Nat} (hn : n < 8) (v : Word) :
    tcpWord (tcpWriteWord t n v) n = v &&& tcpWordMask n := by
  have hall : v &&& 0xFFFFFFFF#32 = v := BitVec.and_allOnes
  interval_cases n
  · exact hall.symm
  · exact hall.symm
  · exact (halves_append v).trans hall.symm
  · apply BitVec.eq_of_getLsbD_eq
    intro i hi
    simp only [tcpWord, tcpWriteWord, tcpWordMask, BitVec.getLsbD_append, BitVec.getLsbD_and,
      BitVec.getLsbD_extractLsb']
    interval_cases i <;> simp
  · exact (halves_append v).trans hall.symm
  all_goals exact BitVec.and_zero.symm

/-- A write of one word of a TCP slot leaves every other word as it was: no field is in two words. -/
theorem tcpWord_tcpWriteWord_other (t : TcpSlot) {m n : Nat} (h : m ≠ n) (v : Word) :
    tcpWord (tcpWriteWord t n v) m = tcpWord t m := by
  unfold tcpWriteWord
  split <;> unfold tcpWord <;> split <;> first | contradiction | rfl

/-! ### The words of a UDP slot -/

theorem udpWord_eq_reads (u : UdpSlot) (n : Nat) : udpWord u n = BitVec.ofNat 32 (udpSlotReads u n) := by
  unfold udpWord udpSlotReads
  split <;> refine eq_ofNat_of_toNat_eq ?_
  case h_5 => simp_all
  all_goals
    simp only [toNat_append_eq_add, toNat_ofBool_eq_ite, reduceIte, OfNat.ofNat_ne_zero, OfNat.ofNat_ne_one,
      Nat.reduceEqDiff, BitVec.ofNat_eq_ofNat, BitVec.toNat_ofNat]
  all_goals omega

theorem udpWriteWord_eq_stored (u : UdpSlot) (n : Nat) (v : Word) :
    udpWriteWord u n v = udpSlotStored u n v.toNat := by
  unfold udpWriteWord udpSlotStored
  split
  case h_5 => simp_all
  all_goals simp only [extractLsb'_eq_ofNat, getLsbD_zero_eq]
  all_goals simp

/-- The bits of word `n` of a UDP slot that are not reserved (10_state.md R43). -/
def udpWordMask (n : Nat) : Word := if n < 3 then 0xFFFFFFFF else if n = 3 then 1 else 0

theorem udpWord_udpWriteWord_same (u : UdpSlot) {n : Nat} (hn : n < 8) (v : Word) :
    udpWord (udpWriteWord u n v) n = v &&& udpWordMask n := by
  have hall : v &&& 0xFFFFFFFF#32 = v := BitVec.and_allOnes
  interval_cases n
  · exact hall.symm
  · exact hall.symm
  · exact (halves_append v).trans hall.symm
  · apply BitVec.eq_of_getLsbD_eq
    intro i hi
    simp only [udpWord, udpWriteWord, udpWordMask, BitVec.getLsbD_append, BitVec.getLsbD_and]
    interval_cases i <;> simp
  all_goals exact BitVec.and_zero.symm

/-- A write of one word of a UDP slot leaves every other word as it was: no field is in two words. -/
theorem udpWord_udpWriteWord_other (u : UdpSlot) {m n : Nat} (h : m ≠ n) (v : Word) :
    udpWord (udpWriteWord u n v) m = udpWord u m := by
  unfold udpWriteWord
  split <;> unfold udpWord <;> split <;> first | contradiction | rfl

/-! ### One access to a slot word -/

theorem Config.ok_nTcp_le {c : Config} (h : c.ok = true) : c.nTcp ≤ 256 := by
  simp only [Config.ok, Bool.and_eq_true, decide_eq_true_eq] at h
  omega

theorem Config.ok_nUdp_le {c : Config} (h : c.ok = true) (hu : c.udpEn = true) : c.nUdp ≤ 256 := by
  simp only [Config.ok, hu, reduceIte, Bool.and_eq_true, decide_eq_true_eq] at h
  omega

section SlotAccess

variable {s : State} {k n : Nat}

/-- The offset of a slot word, from the first offset of its table, fits the window. -/
theorem slotOffset_toNat {base : Nat} (hb : base ≤ 0x13000) (hk : k < 256) (hn : n < 8) :
    (BitVec.ofNat 17 (base + 32 * k + 4 * n)).toNat = base + 32 * k + 4 * n := by
  rw [BitVec.toNat_ofNat]
  omega

theorem wordAccess_slotOffset {base : Nat} (hb : base ≤ 0x13000) (h4 : base % 4 = 0) (hk : k < 256) (hn : n < 8) :
    wordAccess .word (BitVec.ofNat 17 (base + 32 * k + 4 * n)) = true :=
  wordAccess_iff.2 ⟨rfl, by rw [slotOffset_toNat hb hk hn]; omega⟩

theorem not_cmd_of_slotOffset {base : Nat} (hlo : 0x11000 ≤ base) (hb : base ≤ 0x13000) (hk : k < 256) (hn : n < 8) :
    ¬ (BitVec.ofNat 17 (base + 32 * k + 4 * n) = cmdOffset ∧ Width.word = .word) := by
  rintro ⟨e, -⟩
  have he := congrArg BitVec.toNat e
  have hcmd : cmdOffset.toNat = 0x10000 := rfl
  rw [slotOffset_toNat hb hk hn, hcmd] at he
  omega

theorem step_read_tcpWord (hk : k < s.cfg.nTcp) (hN : s.cfg.nTcp ≤ 256) (hn : n < 8) :
    step (doing (.read .word (BitVec.ofNat 17 (0x11000 + 32 * k + 4 * n))) s) =
      .next (s.setRdata (tcpWord (s.tcpSlot k) n)) := by
  have hk' := lt_of_lt_of_le hk hN
  rw [step_read, hostRead_tcp (by rw [slotOffset_toNat (by omega) hk' hn, placeOf_tcp hk hk' hn]),
    if_pos (wordAccess_slotOffset (by omega) (by omega) hk' hn)]

theorem step_write_tcpWord (hk : k < s.cfg.nTcp) (hN : s.cfg.nTcp ≤ 256) (hn : n < 8) (v : Word) :
    step (doing (.write .word (BitVec.ofNat 17 (0x11000 + 32 * k + 4 * n)) v) s) =
      .next (s.setTcp k (tcpWriteWord (s.tcpSlot k) n v)) := by
  have hk' := lt_of_lt_of_le hk hN
  rw [step_write (not_cmd_of_slotOffset (by omega) (by omega) hk' hn),
    hostWrite_tcp (by rw [slotOffset_toNat (by omega) hk' hn, placeOf_tcp hk hk' hn]),
    if_pos (wordAccess_slotOffset (by omega) (by omega) hk' hn)]

theorem step_read_udpWord (hu : s.cfg.udpEn = true) (hk : k < s.cfg.nUdp) (hN : s.cfg.nUdp ≤ 256) (hn : n < 8) :
    step (doing (.read .word (BitVec.ofNat 17 (0x13000 + 32 * k + 4 * n))) s) =
      .next (s.setRdata (udpWord (s.udpSlot k) n)) := by
  have hk' := lt_of_lt_of_le hk hN
  rw [step_read, hostRead_udp (by rw [slotOffset_toNat (by omega) hk' hn, placeOf_udp hu hk hk' hn]),
    if_pos (wordAccess_slotOffset (by omega) (by omega) hk' hn)]

theorem step_write_udpWord (hu : s.cfg.udpEn = true) (hk : k < s.cfg.nUdp) (hN : s.cfg.nUdp ≤ 256) (hn : n < 8)
    (v : Word) :
    step (doing (.write .word (BitVec.ofNat 17 (0x13000 + 32 * k + 4 * n)) v) s) =
      .next (s.setUdp k (udpWriteWord (s.udpSlot k) n v)) := by
  have hk' := lt_of_lt_of_le hk hN
  rw [step_write (not_cmd_of_slotOffset (by omega) (by omega) hk' hn),
    hostWrite_udp (by rw [slotOffset_toNat (by omega) hk' hn, placeOf_udp hu hk hk' hn]),
    if_pos (wordAccess_slotOffset (by omega) (by omega) hk' hn)]

end SlotAccess

/-- Settles O14: the access is the slot's word read or written, and the words are the fields at their bits. -/
theorem tcpSlotWordsHoldTheFields : Obligations.TcpSlotWordsHoldTheFields := by
  intro s k n v hinv hk hn off mask t
  have hN := Config.ok_nTcp_le hinv.cfg
  have hslot : t.tcpSlot k = tcpSlotStored (s.tcpSlot k) n v.toNat :=
    State.tcpSlot_setTcp_same s _ (by rwa [hinv.tcp])
  refine ⟨?_, ?_, hslot, fun j hj => State.tcpSlot_setTcp_other s _ hj, ?_, fun m hm hmn => ?_⟩
  · rw [step_read_tcpWord hk hN hn, tcpWord_eq_reads]
    rfl
  · rw [step_write_tcpWord hk hN hn, tcpWriteWord_eq_stored]
    rfl
  · rw [step_read_tcpWord (s := t) hk hN hn, hslot, ← tcpWriteWord_eq_stored, tcpWord_tcpWriteWord_same _ hn]
    rfl
  · rw [step_read_tcpWord (s := t) hk hN hm, hslot, ← tcpWriteWord_eq_stored, tcpWord_tcpWriteWord_other _ hmn,
      tcpWord_eq_reads]
    rfl

/-- Settles O15: as for a TCP slot, in the table a block with UDP support has. -/
theorem udpSlotWordsHoldTheFields : Obligations.UdpSlotWordsHoldTheFields := by
  intro s k n v hinv hu hk hn off mask t
  have hN := Config.ok_nUdp_le hinv.cfg hu
  have hslot : t.udpSlot k = udpSlotStored (s.udpSlot k) n v.toNat :=
    State.udpSlot_setUdp_same s _ (by rwa [hinv.udp])
  refine ⟨?_, ?_, hslot, fun j hj => State.udpSlot_setUdp_other s _ hj, ?_, fun m hm hmn => ?_⟩
  · rw [step_read_udpWord hu hk hN hn, udpWord_eq_reads]
    rfl
  · rw [step_write_udpWord hu hk hN hn, udpWriteWord_eq_stored]
    rfl
  · rw [step_read_udpWord (s := t) hu hk hN hn, hslot, ← udpWriteWord_eq_stored, udpWord_udpWriteWord_same _ hn]
    rfl
  · rw [step_read_udpWord (s := t) hu hk hN hm, hslot, ← udpWriteWord_eq_stored, udpWord_udpWriteWord_other _ hmn,
      udpWord_eq_reads]
    rfl

/-! ### The bytes of the two regions -/

section Bytes

variable {s : State} {a : Nat}

theorem bufOffset_toNat (h : a < 0x10000) : (BitVec.ofNat 17 a).toNat = a := by
  rw [BitVec.toNat_ofNat]
  omega

theorem placeOf_bufOffset (h : a < 0x10000) (hb : a < bufSize s.cfg) :
    placeOf s.cfg (BitVec.ofNat 17 a).toNat = .buf a := by
  rw [bufOffset_toNat h, placeOf_lt h, if_pos hb]

theorem step_read_bufByte (h : a < 0x10000) (hb : a < bufSize s.cfg) :
    step (doing (.read .byte (BitVec.ofNat 17 a)) s) = .next (s.setRdata ((s.bufByte a).setWidth 32)) := by
  rw [step_read]
  simp only [hostRead, placeOf_bufOffset h hb, reduceIte]

theorem step_write_bufByte (h : a < 0x10000) (hb : a < bufSize s.cfg) (v : Word) :
    step (doing (.write .byte (BitVec.ofNat 17 a) v) s) = .next (s.storeBuf a (v.setWidth 8)) := by
  have hcmd : ¬ (BitVec.ofNat 17 a = cmdOffset ∧ Width.byte = .word) := fun hc => by cases hc.2
  rw [step_write hcmd]
  simp only [hostWrite, placeOf_bufOffset h hb, reduceIte]

theorem namesNothing_of_beyond_buf (h : a < 0x10000) (hb : bufSize s.cfg ≤ a) (width : Width) :
    namesNothing s width (BitVec.ofNat 17 a) := by
  left
  rw [bufOffset_toNat h]
  exact ⟨hb, h⟩

theorem step_sndWrite {addr : Word} (h : addr.toNat < s.cfg.sndSize) (b : Byte) :
    step (doing (.sndWrite addr b) s) = .next (s.storeSnd addr.toNat b) := by
  rw [step_doing_done (o := hostSndWrite addr b s) rfl, hostSndWrite, if_pos h]

theorem step_sndRead {addr : Word} (h : addr.toNat < s.cfg.sndSize) :
    step (doing (.sndRead addr) s) = .next (s.setRdata ((s.sndByte addr.toNat).setWidth 32)) := by
  rw [step_doing_done (o := hostSndRead addr s) rfl, hostSndRead, if_pos h]

theorem step_sndWrite_beyond {addr : Word} (h : s.cfg.sndSize ≤ addr.toNat) (b : Byte) :
    step (doing (.sndWrite addr b) s) = .fault .sndAddress := by
  rw [step_doing_done (o := hostSndWrite addr b s) rfl, hostSndWrite, if_neg (Nat.not_lt.2 h)]

theorem step_sndRead_beyond {addr : Word} (h : s.cfg.sndSize ≤ addr.toNat) :
    step (doing (.sndRead addr) s) = .fault .sndAddress := by
  rw [step_doing_done (o := hostSndRead addr s) rfl, hostSndRead, if_neg (Nat.not_lt.2 h)]

/-- A byte of BUF: what a write leaves there, and what the reads before and after it give. -/
theorem bufByte_write_read (h : a < 0x10000) (hb : a < bufSize s.cfg) (v : Word) :
    let t := s.storeBuf a (v.setWidth 8)
    t.bufByte a = v.setWidth 8 ∧ (∀ x, x ≠ a → t.bufByte x = s.bufByte x) ∧ t = { s with buf := t.buf } ∧
      step (doing (.read .byte (BitVec.ofNat 17 a)) s) = .next { s with rdata := (s.bufByte a).setWidth 32 } ∧
      step (doing (.read .byte (BitVec.ofNat 17 a)) t) = .next { t with rdata := (v.setWidth 8).setWidth 32 } := by
  intro t
  have hsame : t.bufByte a = v.setWidth 8 := State.bufByte_storeBuf_same s a _
  refine ⟨hsame, fun x hx => ?_, rfl, step_read_bufByte h hb, ?_⟩
  · rw [State.bufByte_storeBuf, if_neg hx]
  · rw [step_read_bufByte (s := t) h hb, hsame]
    rfl

end Bytes

/-- Settles O16: a byte in its space is one cell of its memory; beyond BUF an access names nothing, beyond SND it
stops. -/
theorem hostBytesReadBack : Obligations.HostBytesReadBack := by
  refine ⟨fun s a v h => ?_, fun s a b h => ?_, fun s a b h => ⟨step_sndWrite_beyond h b, step_sndRead_beyond h⟩⟩
  · by_cases hb : a < bufSize s.cfg
    · exact ⟨_, step_write_bufByte h hb v, fun _ => bufByte_write_read h hb v, fun hout => absurd hb (by omega)⟩
    · have hout := namesNothing_of_beyond_buf h (Nat.le_of_not_lt hb) .byte
      exact ⟨s, step_write_of_namesNothing hout v, fun hin => absurd hin hb,
        fun _ => ⟨rfl, step_read_of_namesNothing hout⟩⟩
  · have hsame : (s.storeSnd a.toNat b).sndByte a.toNat = b := by rw [State.sndByte_storeSnd, if_pos rfl]
    refine ⟨_, step_sndWrite h b, hsame, fun x hx => ?_, rfl, step_sndRead h, ?_⟩
    · rw [State.sndByte_storeSnd, if_neg hx]
    · rw [step_sndRead (s := s.storeSnd a.toNat b) h, hsame]
      rfl

end Sys2Proof.Machine
end

section
/-! What every kind of step keeps (10_state.md R26, R37, R39): commands, host actions, reset and re-entry. -/

namespace Sys2Proof.Machine

open Sys2Proof.Claims

/-! ### Commands by unit -/

/-- Everything a command of the checksum unit can do (40_checksum.md R105 to R115). -/
theorem exec_checksum_cases {i : Instr} {s t : State} (hi : packetCommand i = false) (e : exec i s = .next t) :
    (∃ v, t = s.setAcc32 v) ∨ (∃ v, t = s.setCsres v) ∨ t = (raise .range s).state := by
  have upper_cases : ∀ p, (∃ v, (upperCommand p s).state = s.setCsres v) ∨
      (upperCommand p s).state = (raise .range s).state := by
    intro p
    unfold upperCommand
    split
    · exact .inl ⟨_, rfl⟩
    · exact .inr rfl
  cases i <;> simp only [packetCommand, Bool.true_eq_false] at hi <;>
    simp only [exec, execAcc32, execIcsum, execIpcsum, execTcpcsum, execUdpcsum, Run.outcome,
      Host.Outcome.next.injEq] at e <;> subst e
  case acc32 => exact .inl ⟨_, rfl⟩
  case icsum =>
    split_ifs
    · exact .inr (.inr rfl)
    · exact .inr (.inl ⟨_, rfl⟩)
  case ipcsum => exact .inr (.inl ⟨_, rfl⟩)
  case tcpcsum => exact .inr (upper_cases _)
  case udpcsum => exact .inr (upper_cases _)

/-- The state a packet or polling command ends in, as the `Run` of its pseudocode. -/
def packetRun : Instr → State → Run
  | .evData, s => if bufSize s.cfg < s.length.toNat then raise .range s else inbound (s.setSndlen 0)
  | .evTimer, s => (timerLoop (totalSlots s.cfg) (s.setLength 0)).andThen scanWrap
  | .evPoll slot, s => pendingSend slot.toNat s
  | .evUdpsend slot, s => udpSend slot.toNat s
  | .evUdptimer slot, s => udpPoll slot.toNat s
  | .tcpPoll slot, s => tcpPoll slot.toNat s
  | .udpPoll slot, s => udpPoll slot.toNat s
  | .acc32, s | .icsum, s | .ipcsum, s | .tcpcsum, s | .udpcsum, s => .on s

theorem exec_eq_packetRun {i : Instr} (hi : packetCommand i = true) (s : State) :
    exec i s = .next (packetRun i s).state := by
  cases i with
  | acc32 | icsum | ipcsum | tcpcsum | udpcsum => cases hi
  | evData | evTimer | evPoll | evUdpsend | evUdptimer | tcpPoll | udpPoll => rfl

/-- What the poll of an active slot can do: write the slot, then tear it down or make a request for it that names no UDP
slot (42_polling.md R181). -/
theorem pollActive_cases (k : Nat) (t : TcpSlot) (s : State) :
    (∃ v, pollActive k t s = teardown k (s.setTcp k v)) ∨
      ∃ r v, namesUdp r = false ∧ pollActive k t s = tcpRequest r k (s.setTcp k v) := by
  by_cases hrtx : t.rtxTimer = 1
  · rw [pollActive, if_pos hrtx, pollRetransmit]
    generalize (if t.kaTimer = 1 then { ageSlot t with kaTimer := 1 } else ageSlot t) = u
    split_ifs
    · exact .inl ⟨_, rfl⟩
    · exact .inr ⟨.retransmit, _, rfl, rfl⟩
  · by_cases hka : t.kaTimer = 1
    · rw [pollActive, if_neg hrtx, if_pos hka, pollKeepalive]
      split_ifs
      · exact .inl ⟨_, rfl⟩
      · exact .inr ⟨.keepalive, _, rfl, rfl⟩
    · rw [pollActive, if_neg hrtx, if_neg hka]
      exact .inr ⟨.pollSend, _, rfl, rfl⟩

/-! ### The cursor -/

/-- A piece of a command that commutes with a write of `SCAN` leaves `SCAN` as it was. -/
theorem scan_of_setScan_comm {f : State → Run} (h : ∀ s v, f (s.setScan v) = (f s).map (·.setScan v)) (s : State) :
    (f s).state.scan = s.scan := by
  have hs := h s s.scan
  rw [setScan_self] at hs
  rw [hs]
  cases f s <;> rfl

theorem tcpRequest_scan (k : PbeKind) (n : Nat) (s : State) : (tcpRequest k n s).state.scan = s.scan :=
  scan_of_setScan_comm (tcpRequest_setScan k n) s

theorem udpFinalise_scan (u : Nat) (s : State) : (udpFinalise u s).state.scan = s.scan :=
  scan_of_setScan_comm (udpFinalise_setScan u) s

theorem tcpPoll_scan (k : Nat) (s : State) : (tcpPoll k s).state.scan = s.scan :=
  scan_of_setScan_comm (tcpPoll_setScan k) s

theorem udpPoll_scan (k : Nat) (s : State) : (udpPoll k s).state.scan = s.scan :=
  scan_of_setScan_comm (udpPoll_setScan k) s

theorem pendingSend_scan (k : Nat) (s : State) : (pendingSend k s).state.scan = s.scan := by
  unfold pendingSend
  split_ifs
  · rfl
  · exact tcpRequest_scan _ _ _
  · rfl

theorem udpSend_scan (k : Nat) (s : State) : (udpSend k s).state.scan = s.scan := by
  unfold udpSend
  split_ifs
  · rfl
  · exact udpFinalise_scan _ _
  · rfl

theorem tcpDeliver_scan (s : State) : (tcpDeliver s).state.scan = s.scan := by
  unfold tcpDeliver
  split
  · exact tcpRequest_scan _ _ _
  · split <;> exact tcpRequest_scan _ _ _

theorem udpDeliver_scan (s : State) : (udpDeliver s).state.scan = s.scan := by
  unfold udpDeliver
  split
  · exact (udpFinalise_scan _ _).trans (pbe_frame _ _ s).scan
  · rfl

/-- What `EV_DATA` can do after step 0: drop the frame, or deliver a segment or a datagram (41_dispatch.md R131). -/
theorem inbound_cases (s : State) :
    inbound s = dropFrame s ∨ (∃ v, inbound s = tcpDeliver (s.setAppdata v)) ∨
      ∃ v, inbound s = udpDeliver (s.setAppdata v) := by
  unfold inbound demux tcpIn udpIn
  split
  · exact .inl rfl
  · split_ifs
    · split
      · exact .inl rfl
      · exact .inr (.inl ⟨_, rfl⟩)
    · split
      · exact .inl rfl
      · exact .inr (.inr ⟨_, rfl⟩)
    · exact .inl rfl

theorem inbound_scan (s : State) : (inbound s).state.scan = s.scan := by
  rcases inbound_cases s with e | ⟨v, e⟩ | ⟨v, e⟩ <;> rw [e]
  · rfl
  · exact tcpDeliver_scan _
  · exact udpDeliver_scan _

/-- Only `EV_TIMER` moves the cursor. -/
theorem packetRun_scan {i : Instr} (hi : i ≠ .evTimer) (s : State) : (packetRun i s).state.scan = s.scan := by
  cases i <;> simp only [packetRun, ne_eq, not_true_eq_false] at hi ⊢
  case evData =>
    split_ifs
    · rfl
    · exact inbound_scan _
  case evPoll => exact pendingSend_scan _ _
  case evUdpsend => exact udpSend_scan _ _
  case evUdptimer => exact udpPoll_scan _ _
  case tcpPoll => exact tcpPoll_scan _ _
  case udpPoll => exact udpPoll_scan _ _
  all_goals rfl

/-! ### A command that ends early has faulted -/

/-- A piece of pseudocode that ends the command leaves a faulted block (60_exceptions.md R247). -/
def Run.FaultsIfRaised (r : Run) : Prop := ∀ t, r = .raised t → t.faultBit = true

theorem faultsIfRaised_on (s : State) : (Run.on s).FaultsIfRaised := fun _ e => by cases e

theorem faultsIfRaised_raise (c : ContractFault) (s : State) : (raise c s).FaultsIfRaised := fun _ e => by
  cases e
  rfl

theorem faultsIfRaised_andThen {r : Run} {f : State → Run} (h : r.FaultsIfRaised)
    (g : ∀ t, (f t).FaultsIfRaised) : (r.andThen f).FaultsIfRaised := by
  cases r with
  | on t => exact g t
  | raised t => exact h

theorem faultsIfRaised_tcpFinalise (s : State) : (tcpFinalise s).FaultsIfRaised := by
  rcases tcpFinalise_cases s with ⟨-, e⟩ | ⟨-, -, e⟩ | ⟨-, -, e⟩ <;> rw [e]
  · exact faultsIfRaised_on _
  · exact faultsIfRaised_on _
  · exact faultsIfRaised_raise _ _

theorem faultsIfRaised_udpFinalise (u : Nat) (s : State) : (udpFinalise u s).FaultsIfRaised := by
  unfold udpFinalise udpFill
  split_ifs
  · exact faultsIfRaised_on _
  · split
    · exact faultsIfRaised_on _
    · exact faultsIfRaised_raise _ _
  · exact faultsIfRaised_raise _ _

theorem faultsIfRaised_teardown (k : Nat) (s : State) : (teardown k s).FaultsIfRaised :=
  faultsIfRaised_andThen (faultsIfRaised_tcpFinalise _) fun _ => faultsIfRaised_on _

theorem faultsIfRaised_pollActive (k : Nat) (t : TcpSlot) (s : State) : (pollActive k t s).FaultsIfRaised := by
  rcases pollActive_cases k t s with ⟨v, e⟩ | ⟨r, v, -, e⟩ <;> rw [e]
  · exact faultsIfRaised_teardown _ _
  · exact faultsIfRaised_tcpFinalise _

theorem faultsIfRaised_tcpPoll (k : Nat) (s : State) : (tcpPoll k s).FaultsIfRaised := by
  unfold tcpPoll
  split_ifs
  · exact faultsIfRaised_raise _ _
  · exact faultsIfRaised_pollActive _ _ _
  · exact faultsIfRaised_on _

theorem faultsIfRaised_udpPoll (k : Nat) (s : State) : (udpPoll k s).FaultsIfRaised := by
  unfold udpPoll
  split_ifs
  · exact faultsIfRaised_raise _ _
  · exact faultsIfRaised_udpFinalise _ _
  · exact faultsIfRaised_on _

theorem faultsIfRaised_pollIndex (k : Nat) (s : State) : (pollIndex k s).FaultsIfRaised := by
  unfold pollIndex
  split_ifs
  · exact faultsIfRaised_tcpPoll k s
  · exact faultsIfRaised_udpPoll _ s

theorem faultsIfRaised_timerLoop (n : Nat) (s : State) : (timerLoop n s).FaultsIfRaised := by
  induction n generalizing s with
  | zero => exact faultsIfRaised_on s
  | succ n ih =>
    unfold timerLoop
    split_ifs
    · refine faultsIfRaised_andThen (faultsIfRaised_pollIndex _ _) fun t => ?_
      split_ifs
      · exact ih t
      · exact faultsIfRaised_on t
    · exact faultsIfRaised_on s

/-! ### The cursor in `EV_TIMER` -/

/-- The number of slots of legal parameters is not 0 and fits `SCAN` (00_scope.md R13). -/
theorem Config.ok_totalSlots {c : Config} (h : c.ok = true) : 0 < totalSlots c ∧ totalSlots c < 1024 := by
  simp only [Config.ok, Bool.and_eq_true, decide_eq_true_eq] at h
  unfold totalSlots
  cases hu : c.udpEn <;> simp only [hu, Bool.false_eq_true, if_false, if_true, decide_eq_true_eq,
    Bool.and_eq_true] at h ⊢ <;> omega

/-- A round of the loop moves the cursor up by one, so it never passes `N_TOT` (41_dispatch.md R160). -/
theorem timerLoop_scan_le (n : Nat) {s : State} (h : s.cfg.ok = true) (hs : s.scan.toNat ≤ totalSlots s.cfg) :
    (timerLoop n s).state.scan.toNat ≤ totalSlots s.cfg := by
  induction n generalizing s with
  | zero => exact hs
  | succ n ih =>
    by_cases hlt : s.scan.toNat < totalSlots s.cfg
    · rw [timerLoop, if_pos hlt]
      have hcfg := (keeps_pollIndex (s := s.setScan (s.scan + 1)) (Config.ok_room h) s.scan.toNat).cfg
      have hscan := pollIndex_scan s.scan.toNat (s.setScan (s.scan + 1))
      have hnext : (s.scan + 1).toNat ≤ totalSlots s.cfg := by
        have := (Config.ok_totalSlots h).2
        bv_omega
      cases hp : pollIndex s.scan.toNat (s.setScan (s.scan + 1)) with
      | raised t =>
        rw [hp] at hscan
        simp only [Run.raised_andThen, Run.raised_state, State.setScan_scan] at hscan ⊢
        rwa [hscan]
      | on t =>
        rw [hp] at hcfg hscan
        simp only [Run.on_state, State.setScan_cfg, State.setScan_scan] at hcfg hscan
        have ht : t.scan.toNat ≤ totalSlots t.cfg := by rwa [hscan, hcfg]
        simp only [Run.on_andThen]
        split_ifs
        · rw [← hcfg]
          exact ih (by rwa [hcfg]) ht
        · rwa [Run.on_state, ← hcfg]
    · rwa [timerLoop, if_neg hlt]

/-- After `EV_TIMER` the cursor is below `N_TOT`, unless a poll raised (41_dispatch.md R160; log 15). -/
theorem evTimer_scanOk {s : State} (h : s.cfg.ok = true) (hs : s.scan.toNat ≤ totalSlots s.cfg) :
    (packetRun .evTimer s).state.scanOk := by
  intro hf
  have hle := timerLoop_scan_le (totalSlots s.cfg) (s := s.setLength 0) h hs
  have hraise := faultsIfRaised_timerLoop (totalSlots s.cfg) (s.setLength 0)
  have hcfg := (keeps_timerLoop (totalSlots s.cfg) (s := s.setLength 0) (Config.ok_room h)).cfg
  simp only [packetRun] at hf ⊢
  cases hr : timerLoop (totalSlots s.cfg) (s.setLength 0) with
  | raised t =>
    rw [hr] at hf
    exact absurd (hraise t hr) (by simpa using hf)
  | on t =>
    rw [hr] at hle hcfg
    simp only [Run.on_state, State.setLength_cfg] at hle hcfg
    have hpos := (Config.ok_totalSlots h).1
    simp only [Run.on_andThen, scanWrap, Run.on_state]
    split_ifs with hw
    · simpa [hcfg] using hpos
    · rw [hcfg] at hw ⊢
      omega

/-! ### The invariant -/

/-- What the invariant reads is the same in both states, the tables up to their contents. -/
structure SameShape (s t : State) : Prop where
  cfg : t.cfg = s.cfg
  tcpLen : t.tcp.length = s.tcp.length
  udpLen : t.udp.length = s.udp.length
  buf : t.buf = s.buf
  snd : t.snd = s.snd
  faultBit : t.faultBit = s.faultBit
  fcode : t.fcode = s.fcode
  scan : t.scan = s.scan

theorem SameShape.inv {s t : State} (e : SameShape s t) (h : s.Inv) : t.Inv := by
  obtain ⟨hcfg, htcp, hudp, hmem, hstatus, hscan⟩ := h
  constructor
  case cfg => rwa [e.cfg]
  case tcp => rwa [e.tcpLen, e.cfg]
  case udp => rwa [e.udpLen, e.cfg]
  case mem => simpa only [State.memOk, e.buf, e.snd, e.cfg] using hmem
  case status => simpa only [State.statusOk, e.faultBit, e.fcode] using hstatus
  case scan => simpa only [State.scanOk, e.faultBit, e.scan, e.cfg] using hscan

theorem sameShape_setTcp (s : State) (k : Nat) (v : TcpSlot) : SameShape s (s.setTcp k v) :=
  ⟨rfl, List.length_set, rfl, rfl, rfl, rfl, rfl, rfl⟩

theorem sameShape_setUdp (s : State) (k : Nat) (v : UdpSlot) : SameShape s (s.setUdp k v) :=
  ⟨rfl, rfl, List.length_set, rfl, rfl, rfl, rfl, rfl⟩

theorem sameShape_setRdata (s : State) (v : Word) : SameShape s (s.setRdata v) :=
  ⟨rfl, rfl, rfl, rfl, rfl, rfl, rfl, rfl⟩

theorem sameShape_setScript (s : State) (ops : List HostOp) : SameShape s (s.setScript ops) :=
  ⟨rfl, rfl, rfl, rfl, rfl, rfl, rfl, rfl⟩

theorem sameShape_setAcc32 (s : State) (v : Word) : SameShape s (s.setAcc32 v) :=
  ⟨rfl, rfl, rfl, rfl, rfl, rfl, rfl, rfl⟩

theorem sameShape_setCsres (s : State) (v : Half) : SameShape s (s.setCsres v) :=
  ⟨rfl, rfl, rfl, rfl, rfl, rfl, rfl, rfl⟩

/-- No register the host can write is one the invariant reads (10_state.md R42). -/
theorem sameShape_writeReg (s : State) (off : Nat) (v : Word) : SameShape s (writeReg s off v) := by
  unfold writeReg
  split <;> exact ⟨rfl, rfl, rfl, rfl, rfl, rfl, rfl, rfl⟩

/-- A change that keeps what every packet command keeps, and a legal cursor, keeps the invariant. -/
theorem Keeps.inv {s t : State} (k : Keeps s t) (h : s.Inv) (hscan : t.scanOk) : t.Inv := by
  obtain ⟨hcfg, htcp, hudp, ⟨hbufWf, hbufBound, hsndWf, hsndBound⟩, hstatus, -⟩ := h
  constructor
  case cfg => rwa [k.cfg]
  case tcp => rw [k.tcpLen, k.cfg, htcp]
  case udp => rw [k.udpLen, k.cfg, hudp]
  case mem =>
    unfold State.memOk
    rw [k.cfg]
    exact ⟨k.bufWf hbufWf, k.bufBound hbufBound, k.sndWf hsndWf, k.sndBound hsndBound⟩
  case status =>
    rcases k.status with ⟨hbit, hcode⟩ | ⟨hbit, hcode⟩
    · simpa only [State.statusOk, hbit, hcode] using hstatus
    · exact ⟨fun hf => absurd hbit (by simp [hf]), fun _ => hcode⟩
  case scan => exact hscan

theorem inv_raise {s : State} (c : ContractFault) (h : s.Inv) : (raise c s).state.Inv :=
  (keeps_raise c s).inv h fun hf => by simp at hf

theorem inv_storeBuf {s : State} (h : s.Inv) {a : Nat} (ha : a < bufSize s.cfg) (v : Byte) : (s.storeBuf a v).Inv := by
  obtain ⟨hcfg, htcp, hudp, ⟨hbufWf, hbufBound, hsnd⟩, hstatus, hscan⟩ := h
  exact ⟨hcfg, htcp, hudp, ⟨memWrite_wf hbufWf a v, memWrite_bound hbufBound ha v, hsnd⟩, hstatus, hscan⟩

theorem inv_storeSnd {s : State} (h : s.Inv) {a : Nat} (ha : a < s.cfg.sndSize) (v : Byte) : (s.storeSnd a v).Inv := by
  obtain ⟨hcfg, htcp, hudp, ⟨hbufWf, hbufBound, hsndWf, hsndBound⟩, hstatus, hscan⟩ := h
  exact ⟨hcfg, htcp, hudp, ⟨hbufWf, hbufBound, memWrite_wf hsndWf a v, memWrite_bound hsndBound ha v⟩, hstatus, hscan⟩

/-- A command that is started keeps the invariant; it is started in a block that is not faulted (10_state.md R47). -/
theorem inv_exec {i : Instr} {s t : State} (h : s.Inv) (hf : s.faultBit = false) (e : exec i s = .next t) : t.Inv := by
  cases hi : packetCommand i with
  | false =>
    rcases exec_checksum_cases hi e with ⟨v, rfl⟩ | ⟨v, rfl⟩ | rfl
    · exact (sameShape_setAcc32 s v).inv h
    · exact (sameShape_setCsres s v).inv h
    · exact inv_raise .range h
  | true =>
    have hk := exec_keeps hi (Config.ok_room h.cfg) e
    rw [exec_eq_packetRun hi, Host.Outcome.next.injEq] at e
    refine hk.inv h ?_
    by_cases hT : i = .evTimer
    · subst hT
      rw [← e]
      exact evTimer_scanOk h.cfg (h.scan hf).le
    · intro _
      rw [hk.cfg, ← e, packetRun_scan hT]
      exact h.scan hf

theorem inv_resetBlock {s : State} (h : s.Inv) : (resetBlock s).Inv := by
  obtain ⟨hcfg, htcp, hudp, ⟨-, -, hsnd⟩, -, -⟩ := h
  refine ⟨hcfg, ?_, ?_, ⟨.nil, by simp [resetBlock], hsnd⟩, ⟨fun _ => rfl, fun hf => ?_⟩, fun _ => ?_⟩
  · simpa [resetBlock] using htcp
  · simpa [resetBlock] using hudp
  · simp [resetBlock] at hf
  · exact (Config.ok_totalSlots hcfg).1

/-- A re-entry leaves a faulted block of the same shape (60_exceptions.md R249). -/
theorem inv_reentryState {s : State} (i : Instr) (h : s.Inv) : (reentryState i s).Inv := by
  obtain ⟨hcfg, htcp, hudp, ⟨-, -, hsndWf, hsndBound⟩, -, -⟩ := h
  have hsnd : SndOnly s (abandoned i s) := sndOnly_answersTaken _ _ _
  refine ⟨hcfg, ?_, ?_, ⟨?_, ?_, hsnd.sndWf hsndWf, hsnd.sndBound hsndBound⟩, ⟨fun hf => ?_, fun _ => ?_⟩, fun hf => ?_⟩
  · simpa using htcp
  · simpa using hudp
  · simp
  · simp
  · simp at hf
  · simp
  · simp at hf

/-! ### Host actions -/

theorem inv_hostRead {width : Width} {off : BitVec 17} {s t : State} (h : s.Inv)
    (e : hostRead width off s = .next t) : t.Inv := by
  unfold hostRead at e
  split at e
  case h_1 =>
    split_ifs at e
    cases e
    exact (sameShape_setRdata s _).inv h
  all_goals
    cases e
    exact (sameShape_setRdata s _).inv h

theorem inv_hostWrite {width : Width} {off : BitVec 17} {v : Word} {s t : State} (h : s.Inv)
    (e : hostWrite width off v s = .next t) : t.Inv := by
  unfold hostWrite at e
  split at e
  case h_1 a hp =>
    obtain ⟨rfl, -, ha⟩ := eq_of_placeOf_buf hp
    split_ifs at e
    cases e
    exact inv_storeBuf h ha _
  case h_5 =>
    cases e
    exact h
  all_goals
    cases e
    split_ifs
  · exact (sameShape_writeReg s _ v).inv h
  · exact h
  · exact (sameShape_setTcp s _ _).inv h
  · exact h
  · exact (sameShape_setUdp s _ _).inv h
  · exact h

/-- The state a move of the host leads to, before any command runs, meets the invariant. -/
def Move.KeepsInv : Move → Prop
  | .idle => True
  | .run _ s => s.Inv ∧ s.faultBit = false
  | .done o => ∀ t, o = .next t → t.Inv

theorem keepsInv_writeCmd {s : State} (w : Word) (h : s.Inv) : (writeCmd w s).KeepsInv := by
  unfold writeCmd
  split_ifs with hf
  · rintro t ⟨⟩
    exact h
  · split
    · exact ⟨h, by simpa using hf⟩
    · rintro t ⟨⟩
      exact inv_raise .illegalCmd h

theorem keepsInv_writeCmdTwice {s : State} (first second : Word) (h : s.Inv) :
    (writeCmdTwice first second s).KeepsInv := by
  unfold writeCmdTwice
  split_ifs
  · rintro t ⟨⟩
    exact h
  · split
    · rintro t ⟨⟩
      exact inv_reentryState _ h
    · exact keepsInv_writeCmd second (inv_raise .illegalCmd h)

theorem keepsInv_hostAct {s : State} (op : HostOp) (h : s.Inv) : (hostAct op s).KeepsInv := by
  cases op with
  | write width off v =>
    simp only [hostAct]
    split_ifs
    · exact keepsInv_writeCmd v h
    · exact fun t e => inv_hostWrite h e
  | read width off => exact fun t e => inv_hostRead h e
  | sndWrite addr v =>
    intro t e
    unfold hostSndWrite at e
    split_ifs at e with ha
    cases e
    exact inv_storeSnd h ha v
  | sndRead addr =>
    intro t e
    unfold hostSndRead at e
    split_ifs at e
    cases e
    exact (sameShape_setRdata s _).inv h
  | overlap first second => exact keepsInv_writeCmdTwice first second h
  | reset =>
    rintro t ⟨⟩
    exact inv_resetBlock h

theorem keepsInv_hostMove {s : State} (h : s.Inv) : (hostMove s).KeepsInv := by
  unfold hostMove
  split
  · trivial
  · exact keepsInv_hostAct _ ((sameShape_setScript s _).inv h)

/-- Settles O54: the host's move keeps the invariant, and so does the command it starts. -/
theorem stepKeepsTheInvariant : Obligations.StepKeepsTheInvariant := by
  intro s t h e
  have hm := keepsInv_hostMove h
  unfold step at e
  split at e
  case h_1 =>
    cases e
    exact h
  case h_2 i u hu =>
    rw [hu] at hm
    obtain ⟨hinv, hf⟩ := hm
    exact inv_exec hinv hf e
  case h_3 o ho =>
    rw [ho] at hm
    exact hm t e

/-- The reference parameters are legal (00_scope.md R13). -/
theorem reference_config_ok : Config.reference.ok = true := by
  simp [Config.ok, Config.reference, -List.reduceReplicate]

/-- Settles O55: the reference parameters are legal, and the reset state is empty and not faulted. -/
theorem resetMeetsTheInvariant : Obligations.ResetMeetsTheInvariant where
  cfg := reference_config_ok
  tcp := rfl
  udp := rfl
  mem := by simp [State.memOk, State.reset]
  status := ⟨fun _ => rfl, fun hf => by simp [State.reset] at hf⟩
  scan := fun _ => by decide

end Sys2Proof.Machine
end

section
/-! Which slots a command can change, and that only the back-end activates one, when `EV_DATA` offers it a free slot
(10_state.md R31, 41_dispatch.md R145). -/

namespace Sys2Proof.Machine

open Sys2Proof.Claims

/-! ### Slots left as they were -/

/-- `t` has the TCP slots of `s` but for those in `T`, and the UDP slots of `s` but for those in `U`. -/
structure SlotsKept (T U : Set Nat) (s t : State) : Prop where
  tcp : ∀ j, j ∉ T → t.tcpSlot j = s.tcpSlot j
  udp : ∀ j, j ∉ U → t.udpSlot j = s.udpSlot j

section SlotsKept

variable {T U : Set Nat} {s t u : State}

theorem SlotsKept.trans (h : SlotsKept T U s t) (g : SlotsKept T U t u) : SlotsKept T U s u :=
  ⟨fun j hj => (g.tcp j hj).trans (h.tcp j hj), fun j hj => (g.udp j hj).trans (h.udp j hj)⟩

theorem slotsKept_of_tables (htcp : t.tcp = s.tcp) (hudp : t.udp = s.udp) : SlotsKept T U s t :=
  ⟨fun j _ => by rw [State.tcpSlot, htcp, State.tcpSlot], fun j _ => by rw [State.udpSlot, hudp, State.udpSlot]⟩

theorem SlotsKept.mono {T' U' : Set Nat} (h : SlotsKept T U s t) (hT : T ⊆ T') (hU : U ⊆ U') : SlotsKept T' U' s t :=
  ⟨fun j hj => h.tcp j fun hin => hj (hT hin), fun j hj => h.udp j fun hin => hj (hU hin)⟩

end SlotsKept

theorem slotsKept_setTcp (s : State) (k : Nat) (v : TcpSlot) : SlotsKept {k} ∅ s (s.setTcp k v) :=
  ⟨fun _ hj => State.tcpSlot_setTcp_other s v hj, fun _ _ => rfl⟩

/-- A request leaves every slot but the one it names (43_backend_port.md R214). -/
theorem slotsKept_pbe (k : PbeKind) (n : Nat) (s : State) :
    SlotsKept {j | namesTcp k = true ∧ j = n} {j | namesUdp k = true ∧ j = n} s (pbe k n s) := by
  have h := pbe_frame k n s
  constructor
  · intro j hj
    rcases h.tcp with e | ⟨hk, v, e⟩
    · rw [State.tcpSlot, e, State.tcpSlot]
    · rw [State.tcpSlot, e]
      exact State.tcpSlot_setTcp_other s v fun hjn => hj ⟨hk, hjn⟩
  · intro j hj
    rcases h.udp with e | ⟨hk, v, e⟩
    · rw [State.udpSlot, e, State.udpSlot]
    · rw [State.udpSlot, e]
      exact State.udpSlot_setUdp_other s v fun hjn => hj ⟨hk, hjn⟩

theorem slotsKept_bufChange {T U : Set Nat} {s t : State} {lo n : Nat} (h : BufChange s t lo n) : SlotsKept T U s t :=
  slotsKept_of_tables (by rw [h.eq]) (by rw [h.eq])

theorem slotsKept_tcpFinalise {T U : Set Nat} (s : State) : SlotsKept T U s (tcpFinalise s).state := by
  rcases tcpFinalise_cases s with ⟨-, e⟩ | ⟨-, -, e⟩ | ⟨-, -, e⟩ <;> rw [e]
  · exact slotsKept_of_tables rfl rfl
  · exact slotsKept_bufChange (tcpFilled_change s)
  · exact slotsKept_of_tables rfl rfl

theorem slotsKept_udpFinalise {T U : Set Nat} {s : State} (h : Room s.cfg) (u : Nat) :
    SlotsKept T U s (udpFinalise u s).state := by
  rcases udpFinalise_cases h.max u with ⟨-, e⟩ | ⟨-, -, e⟩ | ⟨-, -, e⟩ <;> rw [e]
  · exact slotsKept_of_tables rfl rfl
  · have hc := udpFilled_change u s
    exact slotsKept_of_tables (by rw [Run.on_state, hc.eq]; rfl) (by rw [Run.on_state, hc.eq]; rfl)
  · exact slotsKept_of_tables rfl rfl

theorem slotsKept_tcpRequest {k : PbeKind} (hk : namesUdp k = false) (n : Nat) (s : State) :
    SlotsKept {j | namesTcp k = true ∧ j = n} ∅ s (tcpRequest k n s).state := by
  refine ((slotsKept_pbe k n s).mono subset_rfl ?_).trans (slotsKept_tcpFinalise _)
  rintro j ⟨hu, -⟩
  rw [hk] at hu
  cases hu

/-- A request of a TCP kind changes no slot but the TCP slot it is for. -/
theorem slotsKept_tcpRequest_slot {k : PbeKind} (hk : namesUdp k = false) (n : Nat) (s : State) :
    SlotsKept {n} ∅ s (tcpRequest k n s).state :=
  (slotsKept_tcpRequest hk n s).mono (fun _ hj => hj.2) subset_rfl

theorem slotsKept_udpRequest {k : PbeKind} (hk : namesTcp k = false) {s : State} (h : Room s.cfg) (n : Nat) :
    SlotsKept ∅ {n} s (udpFinalise n (pbe k n s)).state := by
  refine ((slotsKept_pbe k n s).mono ?_ fun _ hj => hj.2).trans
    (slotsKept_udpFinalise (by rw [(pbe_frame k n s).cfg]; exact h) n)
  rintro j ⟨ht, -⟩
  rw [hk] at ht
  cases ht

theorem slotsKept_teardown (k : Nat) (s : State) : SlotsKept {k} ∅ s (teardown k s).state := by
  have h := slotsKept_tcpRequest_slot (k := .abort) rfl k s
  unfold teardown
  cases hr : tcpRequest .abort k s <;> rw [hr] at h
  case on t => exact h.trans (slotsKept_setTcp t k _)
  case raised t => exact h

theorem slotsKept_pollActive (k : Nat) (t : TcpSlot) (s : State) : SlotsKept {k} ∅ s (pollActive k t s).state := by
  rcases pollActive_cases k t s with ⟨v, e⟩ | ⟨r, v, hr, e⟩ <;> rw [e]
  · exact (slotsKept_setTcp s k v).trans (slotsKept_teardown k _)
  · exact (slotsKept_setTcp s k v).trans (slotsKept_tcpRequest_slot hr k _)

/-! ### Slots that stay inactive -/

/-- Every slot that is inactive in `s` is inactive in `t`. -/
structure NoneActivated (s t : State) : Prop where
  tcp : ∀ j, (s.tcpSlot j).active = false → (t.tcpSlot j).active = false
  udp : ∀ j, (s.udpSlot j).active = false → (t.udpSlot j).active = false

theorem NoneActivated.trans {s t u : State} (h : NoneActivated s t) (g : NoneActivated t u) : NoneActivated s u :=
  ⟨fun j hj => g.tcp j (h.tcp j hj), fun j hj => g.udp j (h.udp j hj)⟩

/-- A change of slots that were active already activates none. -/
theorem SlotsKept.noneActivated {T U : Set Nat} {s t : State} (h : SlotsKept T U s t)
    (hT : ∀ j ∈ T, (s.tcpSlot j).active = true) (hU : ∀ j ∈ U, (s.udpSlot j).active = true) : NoneActivated s t := by
  constructor
  · intro j hj
    rw [h.tcp j fun hin => by simp [hT j hin] at hj]
    exact hj
  · intro j hj
    rw [h.udp j fun hin => by simp [hU j hin] at hj]
    exact hj

theorem noneActivated_of_tables {s t : State} (htcp : t.tcp = s.tcp) (hudp : t.udp = s.udp) : NoneActivated s t :=
  (slotsKept_of_tables (T := ∅) (U := ∅) htcp hudp).noneActivated (by simp) (by simp)

/-- The change may start from any state with the same tables. -/
theorem NoneActivated.of_same_tables {s s' t : State} (h : NoneActivated s' t) (htcp : s'.tcp = s.tcp)
    (hudp : s'.udp = s.udp) : NoneActivated s t :=
  (noneActivated_of_tables htcp hudp).trans h

theorem noneActivated_andThen {s : State} {r : Run} {f : State → Run} (h : NoneActivated s r.state)
    (g : ∀ t, r = .on t → NoneActivated t (f t).state) : NoneActivated s (r.andThen f).state := by
  cases r with
  | on t => exact h.trans (g t rfl)
  | raised t => exact h

theorem noneActivated_tcpSlot {s t : State} {k : Nat} (h : SlotsKept {k} ∅ s t) (hk : (s.tcpSlot k).active = true) :
    NoneActivated s t :=
  h.noneActivated (by rintro j rfl; exact hk) (by simp)

theorem noneActivated_udpSlot {s t : State} {k : Nat} (h : SlotsKept ∅ {k} s t) (hk : (s.udpSlot k).active = true) :
    NoneActivated s t :=
  h.noneActivated (by simp) (by rintro j rfl; exact hk)

theorem noneActivated_tcpPoll (k : Nat) (s : State) : NoneActivated s (tcpPoll k s).state := by
  unfold tcpPoll
  split_ifs with _ hact
  · exact noneActivated_of_tables rfl rfl
  · exact (noneActivated_tcpSlot (slotsKept_pollActive k _ ((s.setLength 0).setSndlen 0)) hact).of_same_tables rfl rfl
  · exact noneActivated_of_tables rfl rfl

theorem noneActivated_udpPoll {s : State} (h : Room s.cfg) (k : Nat) : NoneActivated s (udpPoll k s).state := by
  unfold udpPoll
  split_ifs with _ hact
  · exact noneActivated_of_tables rfl rfl
  · exact (noneActivated_udpSlot (slotsKept_udpRequest rfl (s := (s.setLength 0).setSndlen 0) h k) hact).of_same_tables
      rfl rfl
  · exact noneActivated_of_tables rfl rfl

theorem noneActivated_pendingSend (k : Nat) (s : State) : NoneActivated s (pendingSend k s).state := by
  unfold pendingSend
  split_ifs with _ hact
  · exact noneActivated_of_tables rfl rfl
  · exact (noneActivated_tcpSlot
      (slotsKept_tcpRequest_slot (k := .pollSend) rfl k ((s.setLength 0).setSndlen 0)) hact).of_same_tables rfl rfl
  · exact noneActivated_of_tables rfl rfl

theorem noneActivated_udpSend {s : State} (h : Room s.cfg) (k : Nat) : NoneActivated s (udpSend k s).state := by
  unfold udpSend
  split_ifs
  · exact noneActivated_of_tables rfl rfl
  · exact (slotsKept_udpFinalise (T := ∅) (U := ∅) h k).noneActivated (by simp) (by simp)
  · exact noneActivated_of_tables rfl rfl

theorem noneActivated_pollIndex {s : State} (h : Room s.cfg) (k : Nat) : NoneActivated s (pollIndex k s).state := by
  unfold pollIndex
  split_ifs
  · exact noneActivated_tcpPoll k s
  · exact noneActivated_udpPoll h _

theorem noneActivated_timerLoop (n : Nat) {s : State} (h : Room s.cfg) : NoneActivated s (timerLoop n s).state := by
  induction n generalizing s with
  | zero => exact noneActivated_of_tables rfl rfl
  | succ n ih =>
    unfold timerLoop
    split_ifs
    · have hcfg := (keeps_pollIndex (s := s.setScan (s.scan + 1)) h s.scan.toNat).cfg
      refine noneActivated_andThen
        ((noneActivated_pollIndex (s := s.setScan (s.scan + 1)) h _).of_same_tables rfl rfl) fun t ht => ?_
      have ht' : t.cfg = s.cfg := by rwa [ht] at hcfg
      split_ifs
      · exact ih (by rwa [ht'])
      · exact noneActivated_of_tables rfl rfl
    · exact noneActivated_of_tables rfl rfl

theorem noneActivated_evTimer {s : State} (h : Room s.cfg) : NoneActivated s (packetRun .evTimer s).state := by
  refine noneActivated_andThen ((noneActivated_timerLoop _ (s := s.setLength 0) h).of_same_tables rfl rfl) fun t _ => ?_
  unfold scanWrap
  split_ifs <;> exact noneActivated_of_tables rfl rfl

/-! ### `EV_DATA` -/

/-- The slot a search of a table finds satisfies what was searched for. -/
theorem getD_of_findIdx?_eq_some {α : Type} {p : α → Bool} {l : List α} {k : Nat} (d : α)
    (h : l.findIdx? p = some k) : p (l.getD k d) = true := by
  obtain ⟨hk, hp, -⟩ := List.findIdx?_eq_some_iff_getElem.1 h
  rwa [List.getD_eq_getElem _ _ hk]

theorem findTcp_active {s : State} {k : Nat} (h : findTcp s = some k) : (s.tcpSlot k).active = true := by
  have hm : tcpMatches s (s.tcpSlot k) = true := getD_of_findIdx?_eq_some TcpSlot.zero h
  unfold tcpMatches at hm
  exact (Bool.and_eq_true _ _ ▸ hm).1

theorem findUdp_active {s : State} {k : Nat} (h : findUdp s = some k) : (s.udpSlot k).active = true := by
  have hm : udpMatches s (s.udpSlot k) = true := getD_of_findIdx?_eq_some UdpSlot.zero h
  unfold udpMatches at hm
  exact (Bool.and_eq_true _ _ ▸ hm).1

/-- What a command does to the tables: it activates no slot, or it offered one TCP slot to the back-end by `SEG_NEW` and
changes no other (41_dispatch.md R145). -/
def ActivatesOnlyOffered (s t : State) : Prop :=
  NoneActivated s t ∨
    ∃ f, SlotsKept {f} ∅ s t ∧ t.requests = ⟨.segNew, BitVec.ofNat 8 f⟩ :: s.requests

theorem tcpFinalise_requests (s : State) : (tcpFinalise s).state.requests = s.requests := by
  rcases tcpFinalise_cases s with ⟨-, e⟩ | ⟨-, -, e⟩ | ⟨-, -, e⟩ <;> rw [e]
  · rfl
  · rw [Run.on_state, (tcpFilled_change s).eq]
  · rfl

theorem tcpRequest_requests (k : PbeKind) (n : Nat) (s : State) :
    (tcpRequest k n s).state.requests = ⟨k, BitVec.ofNat 8 n⟩ :: s.requests := by
  rw [tcpRequest, tcpFinalise_requests, (pbe_frame k n s).requests]

/-- Delivery of a segment: to an active slot, by offering a free one, or to no slot (41_dispatch.md R143 to R145). -/
theorem tcpDeliver_activates (s : State) : ActivatesOnlyOffered s (tcpDeliver s).state := by
  unfold tcpDeliver
  split
  case h_1 k hk =>
    exact .inl (noneActivated_tcpSlot
      ((slotsKept_setTcp s k _).trans (slotsKept_tcpRequest_slot rfl k _)) (findTcp_active hk))
  case h_2 =>
    split
    case h_1 f _ => exact .inr ⟨f, slotsKept_tcpRequest_slot rfl f s, tcpRequest_requests .segNew f s⟩
    case h_2 =>
      exact .inl ((slotsKept_tcpRequest (k := .segReject) rfl 0 s).noneActivated
        (by rintro j ⟨hnames, -⟩; cases hnames) (by simp))

theorem noneActivated_udpDeliver {s : State} (h : Room s.cfg) : NoneActivated s (udpDeliver s).state := by
  unfold udpDeliver
  split
  case h_1 k hk => exact noneActivated_udpSlot (slotsKept_udpRequest rfl h k) (findUdp_active hk)
  case h_2 => exact noneActivated_of_tables rfl rfl

/-- What holds from a state with the same slots and requests holds from this one. -/
theorem ActivatesOnlyOffered.of_same_tables {s s' t : State} (h : ActivatesOnlyOffered s' t) (htcp : s'.tcp = s.tcp)
    (hudp : s'.udp = s.udp) (hreq : s'.requests = s.requests) : ActivatesOnlyOffered s t := by
  rcases h with hn | ⟨f, hkept, hr⟩
  · exact .inl (hn.of_same_tables htcp hudp)
  · exact .inr ⟨f, (slotsKept_of_tables htcp hudp).trans hkept, by rw [hr, hreq]⟩

theorem inbound_activates {s : State} (h : Room s.cfg) : ActivatesOnlyOffered s (inbound s).state := by
  rcases inbound_cases s with e | ⟨v, e⟩ | ⟨v, e⟩ <;> rw [e]
  · exact .inl (noneActivated_of_tables rfl rfl)
  · exact (tcpDeliver_activates (s.setAppdata v)).of_same_tables rfl rfl rfl
  · exact .inl ((noneActivated_udpDeliver (s := s.setAppdata v) h).of_same_tables rfl rfl)

theorem evData_activates {s : State} (h : Room s.cfg) : ActivatesOnlyOffered s (packetRun .evData s).state := by
  simp only [packetRun]
  split_ifs
  · exact .inl (noneActivated_of_tables rfl rfl)
  · exact (inbound_activates (s := s.setSndlen 0) h).of_same_tables rfl rfl rfl

/-! ### Every command -/

/-- No command but `EV_DATA` activates a slot (10_state.md R31). -/
theorem exec_noneActivated {i : Instr} {s t : State} (h : Room s.cfg) (hi : i ≠ .evData) (e : exec i s = .next t) :
    NoneActivated s t := by
  cases hp : packetCommand i with
  | false =>
    rcases exec_checksum_cases hp e with ⟨v, rfl⟩ | ⟨v, rfl⟩ | rfl <;> exact noneActivated_of_tables rfl rfl
  | true =>
    rw [exec_eq_packetRun hp, Host.Outcome.next.injEq] at e
    subst e
    cases i with
    | evData => exact absurd rfl hi
    | evTimer => exact noneActivated_evTimer h
    | evPoll slot => exact noneActivated_pendingSend _ s
    | evUdpsend slot => exact noneActivated_udpSend h _
    | evUdptimer slot => exact noneActivated_udpPoll h _
    | tcpPoll slot => exact noneActivated_tcpPoll _ s
    | udpPoll slot => exact noneActivated_udpPoll h _
    | acc32 | icsum | ipcsum | tcpcsum | udpcsum => cases hp

/-- Settles O60: only `EV_DATA` can activate a slot, and then only the one it offered by `SEG_NEW`. -/
theorem onlyTheBackendActivatesASlot : Obligations.OnlyTheBackendActivatesASlot := by
  intro i s t k hinv e
  have hroom := Config.ok_room hinv.cfg
  by_cases hi : i = .evData
  · subst hi
    rw [exec_eq_packetRun rfl, Host.Outcome.next.injEq] at e
    subst e
    rcases evData_activates hroom with hn | ⟨f, hkept, hreq⟩
    · exact ⟨fun hs ht => by simp [hn.tcp k hs] at ht, hn.udp k⟩
    · refine ⟨fun hs ht => ⟨rfl, ?_⟩, fun hs => by rw [hkept.udp k (by simp)]; exact hs⟩
      have hkf : k = f := by
        by_contra hne
        rw [hkept.tcp k hne, hs] at ht
        cases ht
      rw [hreq, hkf]
  · have hn := exec_noneActivated hroom hi e
    exact ⟨fun hs ht => by simp [hn.tcp k hs] at ht, hn.udp k⟩

end Sys2Proof.Machine
end

section
/-! The memory the commands read and write (20_memory.md): the two-region view, the reads of the checksum unit, the
link-header reserve. -/

namespace Sys2Proof.Machine

open Sys2Proof.Claims

/-! ### The two-region view (20_memory.md R55, R56) -/

section View

variable {s : State} {i : Nat}

theorem split_of_sndlen_ne (h : s.sndlen ≠ 0) : s.split = true := decide_eq_true h

theorem split_of_sndlen_eq (h : s.sndlen = 0) : s.split = false := decide_eq_false (not_not_intro h)

theorem logicalByte_of_contiguous (h : s.sndlen = 0) : logicalByte s i = s.bufByte i := by
  simp [logicalByte, split_of_sndlen_eq h]

theorem logicalByte_of_header (h : i < s.appdata.toNat) : logicalByte s i = s.bufByte i := by
  simp [logicalByte, h]

theorem logicalByte_of_payload (hs : s.sndlen ≠ 0) (h : s.appdata.toNat ≤ i) :
    logicalByte s i = s.sndByte (s.sndptr.toNat + (i - s.appdata.toNat)) := by
  simp [logicalByte, split_of_sndlen_ne hs, h]

/-- `VIEW_OK` (20_memory.md R57) as inequalities. -/
theorem viewOk_iff : viewOk s = true ↔ s.length.toNat ≤ bufSize s.cfg ∧
    (s.sndlen ≠ 0 → s.length.toNat - headerBound s ≤ s.sndlen.toNat ∧
      s.sndptr.toNat + (s.length.toNat - headerBound s) ≤ s.cfg.sndSize) := by
  by_cases h : s.sndlen = 0
  · simp [viewOk, split_of_sndlen_eq h, h]
  · have hne : s.sndlen ≠ 0 := h
    simp only [viewOk, split_of_sndlen_ne hne, Bool.not_true, Bool.false_or, Bool.and_eq_true, decide_eq_true_eq,
      hne, ne_eq, not_false_eq_true, forall_const]

/-- With a valid view, a logical byte after the split is inside `snd`. -/
theorem payload_addr_lt_of_viewOk (hv : viewOk s = true) (hs : s.sndlen ≠ 0) (ha : s.appdata.toNat ≤ i)
    (hi : i < s.length.toNat) : s.sndptr.toNat + (i - s.appdata.toNat) < s.cfg.sndSize := by
  obtain ⟨-, hsnd⟩ := viewOk_iff.1 hv
  obtain ⟨-, hend⟩ := hsnd hs
  unfold headerBound at hend
  omega

end View

/-- Settles O26: without a split every logical byte is one of `buf`; with one, the packet is cut at `hb`. -/
theorem logicalPacketIsTheTwoRegions : Obligations.LogicalPacketIsTheTwoRegions := by
  intro s hb
  refine ⟨fun h => ?_, fun h => ?_⟩
  · exact List.map_congr_left fun i _ => by rw [logicalByte_of_contiguous h, Nat.zero_add]
  · have hcut : s.length.toNat = hb + (s.length.toNat - hb) := by omega
    rw [logicalPacket, logicalRange, hcut, List.range_add, List.map_append, List.map_map, Nat.add_sub_cancel_left]
    congr 1 <;> refine List.map_congr_left fun i hi => ?_ <;> rw [List.mem_range] at hi
    · rw [logicalByte_of_header (by omega), Nat.zero_add]
    · have happ : hb = s.appdata.toNat := by omega
      rw [Function.comp_apply, Nat.zero_add, logicalByte_of_payload h (by omega), happ, Nat.add_sub_cancel_left]

/-! ### What the checksum unit reads (20_memory.md R67): two states whose bytes agree inside BUF and SND -/

section Agree

variable {s t : State} (h : agreeInBounds s t)
include h

theorem cfg_of_agreeInBounds : t.cfg = s.cfg := by rw [h.1]

theorem length_of_agreeInBounds : t.length = s.length := by rw [h.1]

theorem bufByte_of_agreeInBounds {a : Nat} (ha : a < bufSize s.cfg) : t.bufByte a = s.bufByte a := h.2.1 a ha

theorem bufRange_of_agreeInBounds {a n : Nat} (ha : a + n ≤ bufSize s.cfg) : bufRange t a n = bufRange s a n :=
  List.map_congr_left fun i hi => bufByte_of_agreeInBounds h (by have := List.mem_range.1 hi; omega)

/-- The view depends on registers only. -/
theorem viewOk_of_agreeInBounds : viewOk t = viewOk s := by rw [h.1]; rfl

theorem logicalByte_of_agreeInBounds (hv : viewOk s = true) {i : Nat} (hi : i < s.length.toNat) :
    logicalByte t i = logicalByte s i := by
  obtain ⟨e, hbuf, hsnd⟩ := h
  have hlen : s.length.toNat ≤ bufSize s.cfg := (viewOk_iff.1 hv).1
  have hsndlen : t.sndlen = s.sndlen := by rw [e]
  have hsndptr : t.sndptr = s.sndptr := by rw [e]
  have happ : t.appdata = s.appdata := by rw [e]
  by_cases hs : s.sndlen = 0
  · rw [logicalByte_of_contiguous (hsndlen.trans hs), logicalByte_of_contiguous hs, hbuf i (by omega)]
  · rcases Nat.lt_or_ge i s.appdata.toNat with hlt | hge
    · rw [logicalByte_of_header (happ ▸ hlt), logicalByte_of_header hlt, hbuf i (by omega)]
    · rw [logicalByte_of_payload (hsndlen ▸ hs) (happ ▸ hge), logicalByte_of_payload hs hge, hsndptr, happ,
        hsnd _ (payload_addr_lt_of_viewOk hv hs hge hi)]

theorem logicalRange_of_agreeInBounds (hv : viewOk s = true) {a n : Nat} (ha : a + n ≤ s.length.toNat) :
    logicalRange t a n = logicalRange s a n :=
  List.map_congr_left fun i hi => logicalByte_of_agreeInBounds h hv (by have := List.mem_range.1 hi; omega)

theorem ipChecksum_of_agreeInBounds (hr : Room s.cfg) : ipChecksum t = ipChecksum s := by
  unfold ipChecksum
  rw [cfg_of_agreeInBounds h, bufRange_of_agreeInBounds h (hr.header (by omega))]

theorem totalLength_of_agreeInBounds (hr : Room s.cfg) : totalLength t = totalLength s := by
  have hroom := hr.header (le_refl 40)
  unfold totalLength headerNat headerByte
  rw [cfg_of_agreeInBounds h, bufByte_of_agreeInBounds h (by omega), bufByte_of_agreeInBounds h (by omega)]

theorem pseudoHeader_of_agreeInBounds (hr : Room s.cfg) (p : Byte) (n : Nat) :
    pseudoHeader t p n = pseudoHeader s p n := by
  have hroom := hr.header (le_refl 40)
  unfold pseudoHeader
  rw [cfg_of_agreeInBounds h, bufRange_of_agreeInBounds h (by omega), bufRange_of_agreeInBounds h (by omega)]

theorem upperOk_of_agreeInBounds (hr : Room s.cfg) : upperOk t = upperOk s := by
  unfold upperOk
  rw [viewOk_of_agreeInBounds h, length_of_agreeInBounds h, totalLength_of_agreeInBounds h hr, cfg_of_agreeInBounds h]

/-- The two checks of 40_checksum.md R113 keep the segment inside the packet, and so inside the two regions. -/
theorem upper_of_agreeInBounds (hr : Room s.cfg) (p : Byte) : upper p t = upper p s := by
  unfold upper
  rw [upperOk_of_agreeInBounds h hr]
  split_ifs with hok
  · simp only [upperOk, Bool.and_eq_true, Bool.not_eq_true', Bool.or_eq_false_iff, decide_eq_false_iff_not] at hok
    obtain ⟨hv, hlen, htot⟩ := hok
    unfold upperBytes
    rw [totalLength_of_agreeInBounds h hr, pseudoHeader_of_agreeInBounds h hr, cfg_of_agreeInBounds h,
      logicalRange_of_agreeInBounds h hv (by omega)]
  · rfl

end Agree

/-- Equal results of a checksum command: `CSRES`, `ACC32` and `STATUS` (40_checksum.md R105 to R115). -/
def SameResult (u v : State) : Prop :=
  v.csres = u.csres ∧ v.acc32 = u.acc32 ∧ v.faultBit = u.faultBit ∧ v.fcode = u.fcode

section Results

variable {s t : State} (h : agreeInBounds s t)
include h

theorem sameResult_of_agreeInBounds : SameResult s t := by
  refine ⟨?_, ?_, ?_, ?_⟩ <;> rw [h.1]

theorem sameResult_setCsres (c : Half) : SameResult (s.setCsres c) (t.setCsres c) := by
  obtain ⟨-, hacc, hstatus⟩ := sameResult_of_agreeInBounds h
  exact ⟨rfl, hacc, hstatus⟩

theorem sameResult_setAcc32 (w : Word) : SameResult (s.setAcc32 w) (t.setAcc32 w) := by
  obtain ⟨hcsres, -, hstatus⟩ := sameResult_of_agreeInBounds h
  exact ⟨hcsres, rfl, hstatus⟩

theorem sameResult_raise (c : ContractFault) : SameResult (raise c s).state (raise c t).state := by
  obtain ⟨hcsres, hacc, -⟩ := sameResult_of_agreeInBounds h
  exact ⟨hcsres, hacc, rfl, rfl⟩

theorem sameResult_upperCommand (hr : Room s.cfg) (p : Byte) :
    SameResult (upperCommand p s).state (upperCommand p t).state := by
  unfold upperCommand
  rw [upper_of_agreeInBounds h hr]
  cases upper p s with
  | some c => exact sameResult_setCsres h c
  | none => exact sameResult_raise h .range

end Results

theorem ofPacketUnits_iff (i : Instr) : ofPacketUnits i ↔ packetCommand i = true := by
  cases i <;> simp [ofPacketUnits, encode, Laws.formatC_fields, packetCommand]

/-- Settles O29: what each command sums is read inside the regions, where the two states agree. -/
theorem checksumReadsStayInBounds : Obligations.ChecksumReadsStayInBounds := by
  intro s t i hi hok h
  have hr := Config.ok_room hok
  rw [ofPacketUnits_iff] at hi
  cases i with
  | acc32 =>
    have hacc : t.acc32 = s.acc32 := by rw [h.1]
    have hop : t.op16 = s.op16 := by rw [h.1]
    refine ⟨_, _, rfl, rfl, ?_⟩
    rw [hacc, hop]
    exact sameResult_setAcc32 h _
  | icsum =>
    have hbase : t.csbase = s.csbase := by rw [h.1]
    have hlen : t.cslen = s.cslen := by rw [h.1]
    refine ⟨_, _, rfl, rfl, ?_⟩
    rw [cfg_of_agreeInBounds h, hbase, hlen]
    split_ifs with hrange
    · exact sameResult_raise h .range
    · rw [bufRange_of_agreeInBounds h (by omega)]
      exact sameResult_setCsres h _
  | ipcsum =>
    refine ⟨_, _, rfl, rfl, ?_⟩
    rw [ipChecksum_of_agreeInBounds h hr]
    exact sameResult_setCsres h _
  | tcpcsum => exact ⟨_, _, rfl, rfl, sameResult_upperCommand h hr protoTcp⟩
  | udpcsum => exact ⟨_, _, rfl, rfl, sameResult_upperCommand h hr protoUdp⟩
  | evData | evTimer | evPoll | evUdpsend | evUdptimer | tcpPoll | udpPoll => exact absurd rfl hi

/-! ### The link-header reserve (20_memory.md R58) -/

/-- Settles O56: a checksum command stores no byte, and a packet or polling command stores from `L` up. -/
theorem linkHeaderIsNeverWritten : Obligations.LinkHeaderIsNeverWritten := by
  intro i s t a hok e ha
  cases hp : packetCommand i with
  | false => rcases exec_checksum_cases hp e with ⟨v, rfl⟩ | ⟨v, rfl⟩ | rfl <;> rfl
  | true => exact (exec_keeps hp (Config.ok_room hok) e).bufByte a (.inl ha)

end Sys2Proof.Machine
end


section
/-! The command word (30_encoding.md R80 to R92): its fields, what decoding answers at each of the five steps, and that
decoding undoes encoding. -/

namespace Sys2Proof

open Sys2Proof.Laws

/-! ### The fields of a word -/

section Fields

variable (w : Word)

theorem slotField_toNat : (slotField w).toNat = w.toNat / 256 % 256 := by
  rw [slotField, BitVec.extractLsb'_toNat, Nat.shiftRight_eq_div_pow]

theorem opcField_toNat : (opcField w).toNat = w.toNat % 256 := by
  rw [opcField, BitVec.extractLsb'_toNat, Nat.shiftRight_zero]

theorem rsvField_toNat : (rsvField w).toNat = w.toNat / 65536 := by
  rw [rsvField, BitVec.extractLsb'_toNat, Nat.shiftRight_eq_div_pow]
  omega

theorem slotField_eq_zero_iff : slotField w = 0 ↔ w.toNat / 256 % 256 = 0 := by
  rw [← slotField_toNat]
  exact BitVec.toNat_inj.symm

theorem rsvField_eq_zero_iff : rsvField w = 0 ↔ w.toNat < 65536 := by
  rw [← Nat.div_eq_zero_iff_lt (by decide), ← rsvField_toNat]
  exact BitVec.toNat_inj.symm

variable {w}

/-- A word with `RSV` 0 is the word of format C of its other two fields. -/
theorem formatC_of_rsvField_eq_zero (h : rsvField w = 0) : formatC (slotField w) (opcField w) = w := by
  rw [rsvField_eq_zero_iff] at h
  apply BitVec.eq_of_toNat_eq
  rw [formatC_toNat, slotField_toNat, opcField_toNat]
  omega

end Fields

/-! ### Decoding undoes encoding -/

/-- The round trip: the command's `OPC` selects its own arm of `decode`, and its `SLOT` is read back. -/
theorem decode_encode {udpEn : Bool} {i : Instr} (h : i.wf udpEn = true) : decode udpEn (encode i) = .ok i := by
  cases i with
  | acc32 | icsum | ipcsum | tcpcsum | udpcsum | evData | evTimer =>
    simp [encode, decode, formatC_fields, slotless]
  | evPoll slot | tcpPoll slot => simp [encode, decode, formatC_fields]
  | evUdpsend slot | evUdptimer slot | udpPoll slot =>
    rw [Instr.wf] at h
    simp [encode, decode, formatC_fields, udpOnly, h]

/-- Settles O1. -/
theorem decodeOfEncodeGivesTheCommand : Obligations.DecodeOfEncodeGivesTheCommand :=
  fun _ _ => decode_encode

/-! ### The five steps of decoding (30_encoding.md R85) -/

/-- The `OPC` of every command without a slot (30_encoding.md R82). -/
def slotlessOpcs : List Nat := [0x00, 0x01, 0x02, 0x03, 0x04, 0x10, 0x11]

/-- The `OPC` of every command that names a TCP slot (30_encoding.md R82). -/
def tcpOpcs : List Nat := [0x12, 0x20]

/-- The `OPC` of every command that needs UDP support (30_encoding.md R85 step 3). -/
def udpOpcs : List Nat := [0x13, 0x14, 0x21]

section Steps

variable {udpEn : Bool} {w : Word}

theorem decode_of_rsvField_ne_zero (h : rsvField w ≠ 0) : decode udpEn w = .error .reservedBits := if_pos h

theorem decode_of_unknown_opc (hr : rsvField w = 0) (ho : (opcField w).toNat ∉ slotlessOpcs ++ tcpOpcs ++ udpOpcs) :
    decode udpEn w = .error .unknownOpc := by
  rw [decode, if_neg (not_not_intro hr)]
  split
  case h_13 => rfl
  all_goals
    rename_i hopc
    exact absurd (by rw [hopc]; decide) ho

theorem decode_of_udp_opc (hr : rsvField w = 0) (ho : (opcField w).toNat ∈ udpOpcs) :
    decode false w = .error .udpAbsent := by
  simp only [udpOpcs, List.mem_cons, List.not_mem_nil, or_false] at ho
  rcases ho with ho | ho | ho <;> simp [decode, hr, ho, udpOnly]

theorem decode_of_slotless_opc (hr : rsvField w = 0) (ho : (opcField w).toNat ∈ slotlessOpcs) (hs : slotField w ≠ 0) :
    decode udpEn w = .error .slotOnSlotless := by
  simp only [slotlessOpcs, List.mem_cons, List.not_mem_nil, or_false] at ho
  rcases ho with ho | ho | ho | ho | ho | ho | ho <;> simpa [decode, hr, ho, slotless] using hs

/-- The fields of a legal word are those of a command the block has (30_encoding.md R82). -/
theorem exists_encode_eq_formatC {slot opc : Byte}
    (h : opc.toNat ∈ slotlessOpcs ∧ slot = 0 ∨ opc.toNat ∈ tcpOpcs ∨ opc.toNat ∈ udpOpcs ∧ udpEn = true) :
    ∃ i, encode i = formatC slot opc ∧ i.wf udpEn = true := by
  have opc_eq : ∀ {n}, opc.toNat = n → opc = BitVec.ofNat 8 n := by
    rintro n rfl
    rw [BitVec.ofNat_toNat, BitVec.setWidth_eq]
  simp only [slotlessOpcs, tcpOpcs, udpOpcs, List.mem_cons, List.not_mem_nil, or_false] at h
  rcases h with ⟨h, rfl⟩ | h | ⟨h, rfl⟩
  · rcases h with h | h | h | h | h | h | h <;> obtain rfl := opc_eq h
    exacts [⟨.acc32, rfl, rfl⟩, ⟨.icsum, rfl, rfl⟩, ⟨.ipcsum, rfl, rfl⟩, ⟨.tcpcsum, rfl, rfl⟩, ⟨.udpcsum, rfl, rfl⟩,
      ⟨.evData, rfl, rfl⟩, ⟨.evTimer, rfl, rfl⟩]
  · rcases h with h | h <;> obtain rfl := opc_eq h
    exacts [⟨.evPoll slot, rfl, rfl⟩, ⟨.tcpPoll slot, rfl, rfl⟩]
  · rcases h with h | h | h <;> obtain rfl := opc_eq h
    exacts [⟨.evUdpsend slot, rfl, rfl⟩, ⟨.evUdptimer slot, rfl, rfl⟩, ⟨.udpPoll slot, rfl, rfl⟩]

/-- A legal word is the encoding of the command it decodes to. -/
theorem decode_of_legal (hr : rsvField w = 0)
    (h : (opcField w).toNat ∈ slotlessOpcs ∧ slotField w = 0 ∨ (opcField w).toNat ∈ tcpOpcs ∨
      (opcField w).toNat ∈ udpOpcs ∧ udpEn = true) :
    ∃ i, decode udpEn w = .ok i ∧ encode i = w ∧ i.wf udpEn = true := by
  obtain ⟨i, hi, hwf⟩ := exists_encode_eq_formatC h
  rw [formatC_of_rsvField_eq_zero hr] at hi
  exact ⟨i, hi ▸ decode_encode hwf, hi, hwf⟩

end Steps

/-- Settles O2: one lemma per step, the word's fields read off its number. -/
theorem decodingFollowsTheSteps : Obligations.DecodingFollowsTheSteps := by
  intro udpEn w plain tcpSlotted udpSlotted opc slot
  have hopc : (opcField w).toNat = opc := opcField_toNat w
  have hslot : slotField w = 0 ↔ slot = 0 := slotField_eq_zero_iff w
  have hrsv := rsvField_eq_zero_iff w
  refine ⟨fun h => ?_, fun h ho => ?_, fun h ho hu => ?_, fun h ho hs => ?_, fun h ho => ?_⟩
  · exact decode_of_rsvField_ne_zero (by rw [Ne, hrsv]; omega)
  · exact decode_of_unknown_opc (hrsv.2 h) (hopc ▸ ho)
  · exact hu ▸ decode_of_udp_opc (hrsv.2 h) (hopc ▸ ho)
  · exact decode_of_slotless_opc (hrsv.2 h) (hopc ▸ ho) (mt hslot.1 hs)
  · refine decode_of_legal (hrsv.2 h) ?_
    rw [hopc, hslot]
    exact ho

/-- Settles O3: the three legal words are encodings, and the other three fail the step the rule names. -/
theorem workedEncodingsDecode : Obligations.WorkedEncodingsDecode :=
  ⟨decode_encode (i := .tcpPoll 3) rfl, rfl, decode_encode (i := .evData) rfl, rfl,
    decode_encode (i := .udpPoll 255) rfl, rfl, decode_of_rsvField_ne_zero (by decide),
    decode_of_slotless_opc rfl (by decide) (by decide), decode_of_unknown_opc rfl (by decide)⟩

end Sys2Proof
end

section
/-! An illegal command word, and what the packet and polling commands leave as it was (30_encoding.md R83, R86). -/

namespace Sys2Proof.Machine

open Sys2Proof.Claims

/-! ### An illegal word -/

theorem writeCmd_illegal {s : State} {w : Word} {e : DecodeError} (h : s.faultBit = false)
    (hd : decode s.cfg.udpEn w = .error e) : writeCmd w s = .done (.next (faulted s 1)) := by
  simp only [writeCmd, h, hd, Bool.false_eq_true, if_false]
  rfl

/-- Settles O5: the word starts no command, and the step ends in the fault. -/
theorem illegalWordOnlySetsStatus : Obligations.IllegalWordOnlySetsStatus := by
  intro s w e hf hd
  exact step_doing_done ((hostAct_cmdWrite w s).trans (writeCmd_illegal hf hd))

/-! ### The frame of the packet and polling commands -/

/-- The state a packet or polling command ends in. -/
theorem eq_packetRun_of_exec {i : Instr} {s t : State} (hi : packetCommand i = true) (e : exec i s = .next t) :
    t = (packetRun i s).state := by
  rw [exec_eq_packetRun hi, Host.Outcome.next.injEq] at e
  exact e.symm

/-- Settles O57, from `Keeps`; only `EV_TIMER` moves the cursor. -/
theorem packetCommandsKeepTheirFrame : Obligations.PacketCommandsKeepTheirFrame := by
  intro i s t hok hi e
  rw [ofPacketUnits_iff] at hi
  have hk := exec_keeps hi (Config.ok_room hok) e
  have hscan : i ≠ .evTimer → t.scan = s.scan := fun hne => by
    rw [eq_packetRun_of_exec hi e]
    exact packetRun_scan hne s
  exact ⟨hk.csbase, hk.cslen, hk.csres, hk.acc32, hk.op16, hk.cfg, hk.script, hk.rdata, hk.tcpLen, hk.udpLen, hscan,
    fun a ha => hk.bufByte a (.inr ha), fun hreq a => State.sndByte_congr (hk.quiet hreq) hk.sndDraw a⟩

/-! ### The one slot of a slot command -/

/-- `List.ext_getElem!` for any value read beyond the end. -/
theorem list_eq_of_getD_eq {α : Type} {l m : List α} {d : α} (hlen : l.length = m.length)
    (h : ∀ k, l.getD k d = m.getD k d) : l = m := by
  refine List.ext_getElem hlen fun k hl hm => ?_
  simpa [hl, hm] using h k

section Tables

variable {T U : Set Nat} {s t : State}

/-- A table of the same size with no slot changed is the same table. -/
theorem SlotsKept.tcp_eq (h : SlotsKept ∅ U s t) (hk : Keeps s t) : t.tcp = s.tcp :=
  list_eq_of_getD_eq hk.tcpLen fun k => h.tcp k (Set.notMem_empty k)

theorem SlotsKept.udp_eq (h : SlotsKept T ∅ s t) (hk : Keeps s t) : t.udp = s.udp :=
  list_eq_of_getD_eq hk.udpLen fun k => h.udp k (Set.notMem_empty k)

/-- The change may start from any state with the same tables. -/
theorem SlotsKept.of_same_tables {s' : State} (h : SlotsKept T U s' t) (htcp : s'.tcp = s.tcp) (hudp : s'.udp = s.udp) :
    SlotsKept T U s t :=
  (slotsKept_of_tables htcp hudp).trans h

end Tables

section SlotCommands

variable {s : State} (k : Nat)

theorem slotsKept_tcpPoll : SlotsKept {k} ∅ s (tcpPoll k s).state := by
  unfold tcpPoll
  split_ifs
  · exact slotsKept_of_tables rfl rfl
  · exact (slotsKept_pollActive k (s.tcpSlot k) ((s.setLength 0).setSndlen 0)).of_same_tables rfl rfl
  · exact slotsKept_of_tables rfl rfl

theorem slotsKept_pendingSend : SlotsKept {k} ∅ s (pendingSend k s).state := by
  unfold pendingSend
  split_ifs
  · exact slotsKept_of_tables rfl rfl
  · exact (slotsKept_tcpRequest_slot (k := .pollSend) rfl k ((s.setLength 0).setSndlen 0)).of_same_tables rfl rfl
  · exact slotsKept_of_tables rfl rfl

theorem slotsKept_udpPoll (h : Room s.cfg) : SlotsKept ∅ {k} s (udpPoll k s).state := by
  unfold udpPoll
  split_ifs
  · exact slotsKept_of_tables rfl rfl
  · exact (slotsKept_udpRequest (k := .udpPoll) rfl (s := (s.setLength 0).setSndlen 0) h k).of_same_tables rfl rfl
  · exact slotsKept_of_tables rfl rfl

theorem slotsKept_udpSend (h : Room s.cfg) : SlotsKept ∅ ∅ s (udpSend k s).state := by
  unfold udpSend
  split_ifs
  · exact slotsKept_of_tables rfl rfl
  · exact slotsKept_udpFinalise h k
  · exact slotsKept_of_tables rfl rfl

end SlotCommands

/-- The TCP slots and the UDP slots a command may change: the one a slot command names, none for `EV_UDPSEND`, and no bound
for the commands without a slot (30_encoding.md R83). -/
def slotsNamed : Instr → Set Nat × Set Nat
  | .tcpPoll slot | .evPoll slot => ({slot.toNat}, ∅)
  | .udpPoll slot | .evUdptimer slot => (∅, {slot.toNat})
  | .evUdpsend _ => (∅, ∅)
  | .acc32 | .icsum | .ipcsum | .tcpcsum | .udpcsum | .evData | .evTimer => (Set.univ, Set.univ)

theorem exec_slotsKept {i : Instr} {s t : State} (hi : packetCommand i = true) (h : Room s.cfg)
    (e : exec i s = .next t) : SlotsKept (slotsNamed i).1 (slotsNamed i).2 s t := by
  rw [eq_packetRun_of_exec hi e]
  cases i with
  | tcpPoll slot => exact slotsKept_tcpPoll _
  | evPoll slot => exact slotsKept_pendingSend _
  | udpPoll slot | evUdptimer slot => exact slotsKept_udpPoll _ h
  | evUdpsend slot => exact slotsKept_udpSend _ h
  | acc32 | icsum | ipcsum | tcpcsum | udpcsum | evData | evTimer =>
    exact ⟨fun j hj => absurd (Set.mem_univ j) hj, fun j hj => absurd (Set.mem_univ j) hj⟩

/-- Settles O58: the slots named, and a table with none of them is the same table. -/
theorem slotCommandsTouchOneSlot : Obligations.SlotCommandsTouchOneSlot := by
  intro s t slot hok
  have hr := Config.ok_room hok
  refine ⟨?_, ?_, fun e => ?_⟩
  · rintro (e | e) <;>
      exact ⟨(exec_slotsKept rfl hr e).udp_eq (exec_keeps rfl hr e), fun j hj => (exec_slotsKept rfl hr e).tcp j hj⟩
  · rintro (e | e) <;>
      exact ⟨(exec_slotsKept rfl hr e).tcp_eq (exec_keeps rfl hr e), fun j hj => (exec_slotsKept rfl hr e).udp j hj⟩
  · have hkept := exec_slotsKept rfl hr e
    have hkeeps := exec_keeps rfl hr e
    exact ⟨hkept.tcp_eq hkeeps, hkept.udp_eq hkeeps⟩

end Sys2Proof.Machine
end

section
/-! The checksum arithmetic (40_checksum.md R100 to R103, R116): `fold` as the residue modulo 65535 with two zeros, `wsum` as a
sum of words, `csum16` as a complement. -/

namespace Sys2Proof.Machine

open Sys2Proof.Claims

/-! ### `fold` (40_checksum.md R101, R103) -/

section Fold

variable {m n : Nat}

theorem fold_lt (n : Nat) : fold n < 65536 := (foldFrom_spec n n le_rfl).1

theorem fold_mod (n : Nat) : fold n % 65535 = n % 65535 := (foldFrom_spec n n le_rfl).2.1

theorem fold_eq_zero_iff : fold n = 0 ↔ n = 0 := by
  obtain ⟨-, -, hpos, hzero⟩ := foldFrom_spec n n le_rfl
  refine ⟨fun h => ?_, hzero⟩
  by_contra hn
  exact (hpos (Nat.pos_of_ne_zero hn)).ne' h

/-- `fold` sees its argument modulo 65535, and whether it is 0. -/
theorem fold_congr (hmod : m % 65535 = n % 65535) (hzero : m = 0 ↔ n = 0) : fold m = fold n := by
  have hm := fold_mod m
  have hn := fold_mod n
  have hz : fold m = 0 ↔ fold n = 0 := by rw [fold_eq_zero_iff, fold_eq_zero_iff, hzero]
  have hlm := fold_lt m
  have hln := fold_lt n
  omega

theorem fold_eq_closed (n : Nat) : fold n = foldClosed n := by
  have hmod := fold_mod n
  have hlt := fold_lt n
  have hzero := fold_eq_zero_iff (n := n)
  unfold foldClosed
  split_ifs <;> omega

theorem fold_add (a b : Nat) : fold (a + b) = fold (fold a + fold b) := by
  refine fold_congr ?_ ?_
  · have ha := fold_mod a
    have hb := fold_mod b
    omega
  · simp only [Nat.add_eq_zero_iff, fold_eq_zero_iff]

theorem fold_eq_max_iff : fold n = 65535 ↔ 0 < n ∧ n % 65535 = 0 := by
  have hmod := fold_mod n
  have hlt := fold_lt n
  have hzero := fold_eq_zero_iff (n := n)
  omega

/-- `foldFrom` repeats the carry step, and only on numbers of 2^16 or more. -/
theorem foldFrom_eq_iterate (k n : Nat) :
    ∃ j, foldFrom k n = foldStep^[j] n ∧ ∀ i, i < j → 65536 ≤ foldStep^[i] n := by
  induction k generalizing n with
  | zero => exact ⟨0, rfl, by simp⟩
  | succ k ih =>
    by_cases hn : n < 65536
    · exact ⟨0, if_pos hn, by simp⟩
    · obtain ⟨j, hj, hlarge⟩ := ih (foldStep n)
      refine ⟨j + 1, (if_neg hn).trans hj, fun i hi => ?_⟩
      cases i with
      | zero => exact not_lt.1 hn
      | succ i => exact hlarge i (Nat.lt_of_succ_lt_succ hi)

end Fold

/-- Settles O17: the fuel `fold` starts from is enough for the number to come below 2^16. -/
theorem foldRepeatsTheCarryStep : Obligations.FoldRepeatsTheCarryStep := by
  intro n
  obtain ⟨k, hk, hlarge⟩ := foldFrom_eq_iterate n n
  exact ⟨k, hk, fold_lt n, hlarge⟩

/-! ### `wsum` (40_checksum.md R100) -/

theorem be16_eq_zero_iff {h l : Byte} : be16 h l = 0 ↔ h = 0 ∧ l = 0 := by
  unfold be16
  bv_omega

theorem wsum_eq_zero_iff (l : List Byte) : wsum l = 0 ↔ ∀ b ∈ l, b = 0 := by
  induction l using wsum.induct with
  | case1 => simp [wsum]
  | case2 b => simp [wsum, be16_eq_zero_iff]
  | case3 h l rest ih => simp [wsum, be16_eq_zero_iff, ih, and_assoc]

/-- Settles O18: two bytes at a time, each pair moving the even positions of the rest up by one. -/
theorem wordSumAddsEveryWord : Obligations.WordSumAddsEveryWord := by
  intro l
  induction l using wsum.induct with
  | case1 => rfl
  | case2 b => simp [wsum, be16]
  | case3 h l rest ih =>
    have hlen : ((h :: l :: rest).length + 1) / 2 = (rest.length + 1) / 2 + 1 := by
      simp only [List.length_cons]
      omega
    rw [hlen, Finset.sum_range_succ', wsum, ih, add_comm]
    rfl

/-! ### `csum16` (40_checksum.md R102, R103, R116) -/

theorem csum16_toNat (l : List Byte) : (csum16 l).toNat = 65535 - fold (wsum l) := by
  rw [csum16, BitVec.toNat_not, BitVec.toNat_ofNat, Nat.mod_eq_of_lt (fold_lt _)]

theorem csum16_eq_max_iff (l : List Byte) : csum16 l = 0xFFFF ↔ wsum l = 0 := by
  have hlt := fold_lt (wsum l)
  rw [← BitVec.toNat_inj, csum16_toNat, ← fold_eq_zero_iff]
  change 65535 - fold (wsum l) = 65535 ↔ _
  omega

theorem csum16_eq_zero_iff (l : List Byte) : csum16 l = 0 ↔ fold (wsum l) = 65535 := by
  have hlt := fold_lt (wsum l)
  rw [← BitVec.toNat_inj, csum16_toNat]
  change 65535 - fold (wsum l) = 0 ↔ _
  omega

/-- Settles O19: `fold` by its residue, `wsum` by its words, `csum16` as the complement. -/
theorem foldFactsHold : Obligations.FoldFactsHold := by
  refine ⟨fold_eq_closed, fun n => fold_eq_zero_iff, fun n => Nat.le_of_lt_succ (fold_lt n), fold_add,
    fun a b ha => ?_, fun l => ?_, fun l => ?_⟩
  · rw [wsum_append a b ha]
  · rw [csum16_eq_max_iff, wsum_eq_zero_iff]
  · rw [csum16_eq_zero_iff, fold_eq_max_iff]

/-- A word at an even offset adds itself to the sum. -/
theorem wsum_append_pair {a : List Byte} (ha : a.length % 2 = 0) (x y : Byte) (b : List Byte) :
    wsum (a ++ [x, y] ++ b) = be16 x y + (wsum a + wsum b) := by
  rw [List.append_assoc, wsum_append a _ ha]
  change wsum a + (be16 x y + wsum b) = _
  omega

/-- A sum and the complement of its fold make a positive multiple of 65535. -/
theorem fold_complement_add (n : Nat) : fold (65535 - fold n + n) = 65535 := by
  have hmod := fold_mod n
  have hlt := fold_lt n
  have hzero := fold_eq_zero_iff (n := n)
  rw [fold_eq_max_iff]
  omega

/-- Settles O20: the checksum adds to the sum of the zeroed list what is missing from a multiple of 65535. -/
theorem roundTripChecksumLaw : Obligations.RoundTripChecksumLaw := by
  intro a b ha c stored
  have hzeroed : wsum (a ++ [0, 0] ++ b) = wsum a + wsum b := by
    rw [wsum_append_pair ha, be16_eq_zero_iff.2 ⟨rfl, rfl⟩, zero_add]
  have hc : be16 (hi8 c) (lo8 c) = 65535 - fold (wsum a + wsum b) := by
    rw [← hzeroed, ← csum16_toNat]
    exact hi_lo c
  have hfold : fold (wsum stored) = 65535 := by
    rw [wsum_append_pair ha, hc, fold_complement_add]
  exact ⟨hfold, (csum16_eq_zero_iff stored).2 hfold⟩

end Sys2Proof.Machine
end

section
/-! The five commands of the checksum unit (40_checksum.md R105 to R118): what each leaves, said once, and the two checksums of
a split packet beside those of its contiguous copy. -/

namespace Sys2Proof.Machine

open Sys2Proof.Claims

/-! ### `ACC32` (40_checksum.md R106) -/

theorem exec_acc32 (s : State) :
    exec .acc32 s = .next { s with acc32 := BitVec.ofNat 32 ((s.acc32.toNat + s.op16.toNat) % 4294967296) } := by
  have hsum : s.acc32 + s.op16.setWidth 32 = BitVec.ofNat 32 ((s.acc32.toNat + s.op16.toNat) % 4294967296) := by
    bv_omega
  rw [← hsum]
  rfl

/-- Settles O21: the general sum, and its two corner cases computed from it. -/
theorem accumulateAddsModulo : Obligations.AccumulateAddsModulo := by
  refine ⟨exec_acc32, fun s hacc hop => ?_, fun s hop => ?_⟩
  · rw [exec_acc32, hacc, hop]
    rfl
  · have hkept : BitVec.ofNat 32 ((s.acc32.toNat + s.op16.toNat) % 4294967296) = s.acc32 := by
      rw [hop]
      bv_omega
    rw [exec_acc32, hkept]

/-! ### `ICSUM` (40_checksum.md R107, R108) -/

@[simp] theorem length_bufRange (s : State) (a n : Nat) : (bufRange s a n).length = n := by simp [bufRange]

theorem getElem?_bufRange (s : State) (a : Nat) {i n : Nat} (h : i < n) :
    (bufRange s a n)[i]? = some (s.bufByte (a + i)) := by
  simp [bufRange, h]

theorem bufRange_congr {s t : State} {a b n : Nat} (h : ∀ i, i < n → t.bufByte (b + i) = s.bufByte (a + i)) :
    bufRange t b n = bufRange s a n :=
  List.map_congr_left fun i hi => h i (List.mem_range.1 hi)

theorem exec_icsum_of_le {s : State} (h : s.csbase.toNat + s.cslen.toNat ≤ bufSize s.cfg) :
    exec .icsum s = .next { s with csres := csum16 (bufRange s s.csbase.toNat s.cslen.toNat) } := by
  rw [exec, execIcsum, if_neg (not_lt.2 h)]
  rfl

theorem exec_icsum_of_lt {s : State} (h : bufSize s.cfg < s.csbase.toNat + s.cslen.toNat) :
    exec .icsum s = .next (faulted s 4) := by
  rw [exec, execIcsum, if_pos h]
  rfl

/-- Settles O22: the range is inside `buf` or it is not. -/
theorem icsumSumsTheRange : Obligations.IcsumSumsTheRange := fun s =>
  ⟨fun h => ⟨_, length_bufRange s _ _, fun _ hi => getElem?_bufRange s _ hi, exec_icsum_of_le h⟩, exec_icsum_of_lt⟩

/-- `ICSUM` over a range inside `buf` whose bytes are known. -/
theorem exec_icsum_of_bytes {s : State} {n : Nat} {l : List Byte} {c : Half} (hn : s.cslen.toNat = n)
    (h : s.csbase.toNat + n ≤ bufSize s.cfg) (hl : bufRange s s.csbase.toNat n = l) (hc : csum16 l = c) :
    exec .icsum s = .next { s with csres := c } := by
  subst hn hl hc
  exact exec_icsum_of_le h

/-- Settles O23: the bytes of each range, and their checksum. -/
theorem icsumCornerCases : Obligations.IcsumCornerCases := by
  refine ⟨fun s hlen hbase => ?_, fun s hle hlen h0 h1 h2 => ?_, fun s hle hlen h0 => ?_,
    fun s base hle hle' hbytes => ?_, fun s hinv hbase hlen => ?_⟩
  · exact exec_icsum_of_bytes (l := []) (congrArg BitVec.toNat hlen) hbase rfl (by decide)
  · have hl : bufRange s s.csbase.toNat 3 = [0x00, 0x01, 0xF2] := by rw [← h0, ← h1, ← h2]; rfl
    exact exec_icsum_of_bytes (congrArg BitVec.toNat hlen) hle hl (by decide)
  · have hl : bufRange s s.csbase.toNat 1 = [0xFF] := by rw [← h0]; rfl
    exact exec_icsum_of_bytes (congrArg BitVec.toNat hlen) hle hl (by decide)
  · have hl : bufRange { s with csbase := base } base.toNat s.cslen.toNat =
        bufRange s s.csbase.toNat s.cslen.toNat := bufRange_congr hbytes
    exact ⟨_, exec_icsum_of_le hle, exec_icsum_of_bytes rfl hle' hl rfl⟩
  · have hmax := (Config.ok_room hinv.cfg).max
    refine exec_icsum_of_lt (lt_of_le_of_lt hmax ?_)
    rw [hbase, hlen]
    decide

/-! ### `IPCSUM` (40_checksum.md R110) -/

/-- Settles O24: the range is the 20 bytes from `L`, and there is no check. -/
theorem ipcsumSumsTheHeader : Obligations.IpcsumSumsTheHeader := fun s =>
  ⟨_, length_bufRange s (hdr s) 20, fun _ hi => getElem?_bufRange s (hdr s) hi, rfl⟩

/-! ### `TCPCSUM` and `UDPCSUM` (40_checksum.md R111 to R115) -/

section Upper

variable {s t : State}

/-- The two checks of `UPPER` (40_checksum.md R113) as inequalities. -/
theorem upperOk_iff : upperOk s = true ↔ viewOk s = true ∧ 20 ≤ totalLength s ∧ hdr s + totalLength s ≤ s.length.toNat := by
  simp only [upperOk, Bool.and_eq_true, Bool.not_eq_true', Bool.or_eq_false_iff, decide_eq_false_iff_not, not_lt]
  rw [add_comm (hdr s), and_comm (a := 20 ≤ _)]

theorem upper_eq_none {p : Byte} (h : ¬ upperOk s = true) : upper p s = none := if_neg h

/-- The command whose protocol is `p` runs `UPPER(p)` (40_checksum.md R114, R115). -/
theorem exec_upper {i : Instr} {p : Byte} (h : i = .tcpcsum ∧ p = 6 ∨ i = .udpcsum ∧ p = 17) (s : State) :
    exec i s = .next (upperCommand p s).state := by
  obtain ⟨rfl, rfl⟩ | ⟨rfl, rfl⟩ := h <;> rfl

theorem upperCommand_of_ok (h : upperOk s = true) (p : Byte) :
    (upperCommand p s).state = { s with csres := csum16 (upperBytes s p) } := by
  rw [upperCommand, upper_eq_some h]
  rfl

theorem upperCommand_of_not_ok (h : ¬ upperOk s = true) (p : Byte) : (upperCommand p s).state = faulted s 4 := by
  rw [upperCommand, upper_eq_none h]
  rfl

theorem sameResult_upperCommand_of_upper_eq {p : Byte} (h : SameResult s t) (he : upper p t = upper p s) :
    SameResult (upperCommand p s).state (upperCommand p t).state := by
  obtain ⟨hcsres, hacc, hstatus⟩ := h
  unfold upperCommand
  rw [he]
  cases upper p s with
  | some c => exact ⟨rfl, hacc, hstatus⟩
  | none => exact ⟨hcsres, hacc, rfl, rfl⟩

end Upper

/-- Settles O25: the checks pass or they do not, and the bytes summed are written out. -/
theorem upperChecksumsSumTheSegment : Obligations.UpperChecksumsSumTheSegment := by
  intro s i p hi tot seglen ok
  have hok : upperOk s = true ↔ ok := upperOk_iff
  rw [exec_upper hi, ← hok]
  refine ⟨fun h => ?_, fun h => ?_⟩
  · rw [upperCommand_of_ok h]
    rfl
  · rw [upperCommand_of_not_ok h]

/-! ### The contiguous copy (40_checksum.md R118) -/

/-- The logical packet copied into `buf`, with no split: the state the split-equivalence law compares with. -/
def contiguousCopy (s : State) : State := { s.storeBytes 0 (logicalPacket s) with sndlen := 0 }

section Copy

variable {s : State} {x : Nat}

theorem contiguousCopy_cfg (s : State) : (contiguousCopy s).cfg = s.cfg := State.storeBytes_cfg s _ _

theorem hdr_contiguousCopy (s : State) : hdr (contiguousCopy s) = hdr s := by rw [hdr, contiguousCopy_cfg]

theorem contiguousCopy_length (s : State) : (contiguousCopy s).length = s.length := State.storeBytes_length s _ _

theorem sameResult_contiguousCopy (s : State) : SameResult s (contiguousCopy s) :=
  ⟨State.storeBytes_csres s _ _, State.storeBytes_acc32 s _ _, State.storeBytes_faultBit s _ _,
    State.storeBytes_fcode s _ _⟩

theorem getElem?_logicalPacket (h : x < s.length.toNat) : (logicalPacket s)[x]? = some (logicalByte s x) := by
  simp [logicalPacket, logicalRange, h]

theorem bufByte_contiguousCopy_of_lt (h : x < s.length.toNat) : (contiguousCopy s).bufByte x = logicalByte s x := by
  change (s.storeBytes 0 (logicalPacket s)).bufByte x = _
  rw [State.bufByte_storeBytes, if_pos (Nat.zero_le x), Nat.sub_zero, getElem?_logicalPacket h, Option.getD_some]

theorem bufByte_contiguousCopy_of_le (h : s.length.toNat ≤ x) : (contiguousCopy s).bufByte x = s.bufByte x :=
  State.bufByte_storeBytes_other s (.inr (by simpa [logicalPacket, logicalRange] using h))

/-- The copy has the logical bytes of the packet. -/
theorem logicalByte_contiguousCopy (h : x < s.length.toNat) : logicalByte (contiguousCopy s) x = logicalByte s x :=
  (logicalByte_of_contiguous rfl).trans (bufByte_contiguousCopy_of_lt h)

theorem viewOk_contiguousCopy (h : viewOk s = true) : viewOk (contiguousCopy s) = true := by
  rw [viewOk_iff, contiguousCopy_cfg, contiguousCopy_length]
  exact ⟨(viewOk_iff.1 h).1, fun hs => absurd rfl hs⟩

/-- A byte of `buf` that is the logical byte there, as far as the packet reaches, is left by the copy. -/
theorem bufByte_contiguousCopy (h : x < s.length.toNat → logicalByte s x = s.bufByte x) :
    (contiguousCopy s).bufByte x = s.bufByte x := by
  rcases Nat.lt_or_ge x s.length.toNat with hx | hx
  · rw [bufByte_contiguousCopy_of_lt hx, h hx]
  · exact bufByte_contiguousCopy_of_le hx

/-- With the raw-read bytes left by the copy, `UPPER` gives the same: the total length and the pseudo-header are read raw, the
segment through the view, inside the packet. -/
theorem upper_contiguousCopy (hv : viewOk s = true)
    (hraw : ∀ j, (j = 2 ∨ j = 3 ∨ 12 ≤ j ∧ j < 20) → (contiguousCopy s).bufByte (hdr s + j) = s.bufByte (hdr s + j))
    (p : Byte) : upper p (contiguousCopy s) = upper p s := by
  have htot : totalLength (contiguousCopy s) = totalLength s := by
    unfold totalLength headerNat headerByte
    rw [contiguousCopy_cfg, hraw 2 (by omega), hraw 3 (by omega)]
  have hok : upperOk (contiguousCopy s) = true ↔ upperOk s = true := by
    rw [upperOk_iff, upperOk_iff, htot, contiguousCopy_length, hdr_contiguousCopy, viewOk_contiguousCopy hv, hv]
  by_cases h : upperOk s = true
  · obtain ⟨-, -, hlen⟩ := upperOk_iff.1 h
    have haddr (k : Nat) (hk : k = 12 ∨ k = 16) :
        bufRange (contiguousCopy s) (hdr s + k) 4 = bufRange s (hdr s + k) 4 :=
      bufRange_congr fun i hi => by rw [Nat.add_assoc, hraw (k + i) (by omega)]
    have hpseudo (n : Nat) : pseudoHeader (contiguousCopy s) p n = pseudoHeader s p n := by
      unfold pseudoHeader
      rw [contiguousCopy_cfg, haddr 12 (by omega), haddr 16 (by omega)]
    have hsegment : logicalRange (contiguousCopy s) (hdr s + 20) (totalLength s - 20) =
        logicalRange s (hdr s + 20) (totalLength s - 20) :=
      List.map_congr_left fun i hi => logicalByte_contiguousCopy (by have := List.mem_range.1 hi; omega)
    rw [upper_eq_some h, upper_eq_some (hok.2 h), upperBytes, upperBytes, htot, hpseudo, contiguousCopy_cfg, hsegment]
  · rw [upper_eq_none h, upper_eq_none (mt hok.1 h)]

end Copy

/-- Settles O27: `UPPER` gives the same, so the command ends the same. -/
theorem splitViewEqualsContiguousCopy : Obligations.SplitViewEqualsContiguousCopy := by
  intro s i hi hv hraw
  obtain ⟨p, hp⟩ : ∃ p : Byte, i = .tcpcsum ∧ p = 6 ∨ i = .udpcsum ∧ p = 17 := by
    rcases hi with rfl | rfl
    · exact ⟨6, .inl ⟨rfl, rfl⟩⟩
    · exact ⟨17, .inr ⟨rfl, rfl⟩⟩
  have hupper := upper_contiguousCopy hv (fun j hj => bufByte_contiguousCopy (hraw j hj)) p
  obtain ⟨hcsres, -, hstatus⟩ :=
    sameResult_upperCommand_of_upper_eq (sameResult_contiguousCopy s) hupper
  exact ⟨_, _, exec_upper hp s, exec_upper hp (contiguousCopy s), hcsres, hstatus⟩

/-! ### A split inside the IP header (40_checksum.md R111 to R113; log 17) -/

/-- `APPDATA` is at the total-length field, which is 20 in `buf` and 0 in `snd`. -/
def splitAtTotalLength : State :=
  { State.reset with
    buf := [(16, 0), (17, 20)]
    snd := [(0, 0), (1, 0)]
    length := 34
    appdata := 16
    sndlen := 18 }

theorem splitAtTotalLength_inv : splitAtTotalLength.Inv where
  cfg := reference_config_ok
  tcp := rfl
  udp := rfl
  mem := by decide
  status := by decide
  scan := by decide

theorem splitAtTotalLength_copy_totalLength : totalLength (contiguousCopy splitAtTotalLength) = 0 := by
  unfold totalLength headerNat headerByte
  rw [contiguousCopy_cfg, bufByte_contiguousCopy_of_lt (by decide), bufByte_contiguousCopy_of_lt (by decide)]
  decide

/-- Settles O28: the command finds the total length in `buf`, and after the copy a total length below 20. -/
theorem splitLawNeedsTheHeaderInBuf : Obligations.SplitLawNeedsTheHeaderInBuf := by
  have hok : upperOk splitAtTotalLength = true := by decide
  have hcopy : ¬ upperOk (contiguousCopy splitAtTotalLength) = true := by
    rw [upperOk_iff, splitAtTotalLength_copy_totalLength]
    omega
  refine ⟨splitAtTotalLength, _, _, splitAtTotalLength_inv, by decide, by decide, by decide,
    exec_upper (.inr ⟨rfl, rfl⟩) _, exec_upper (.inr ⟨rfl, rfl⟩) (contiguousCopy splitAtTotalLength), fun h => ?_⟩
  rw [upperCommand_of_ok hok, upperCommand_of_not_ok hcopy] at h
  exact absurd (congrArg Prod.snd h) (by decide)

end Sys2Proof.Machine
end

section
/-! Completing a packet (41_dispatch.md R150 to R157): what the two finalisers leave, in the words of the statements, and the
slot commands that end with one (41_dispatch.md R162 to R166, 42_polling.md R195). -/

namespace Sys2Proof.Machine

open Sys2Proof.Claims

variable {s : State}

/-! ### `TCP_FINALISE` (41_dispatch.md R152, R153) -/

/-- The preconditions of 41_dispatch.md R153 as inequalities. -/
theorem tcpResponseOk_iff : tcpResponseOk s = true ↔ viewOk s = true ∧ hdr s + 40 ≤ s.length.toNat ∧
    hdr s + totalLength s = s.length.toNat ∧ (s.sndlen ≠ 0 → hdr s + 40 ≤ s.appdata.toNat) := by
  have hsplit : (!s.split || decide (hdr s + 40 ≤ s.appdata.toNat)) = true ↔
      (s.sndlen ≠ 0 → hdr s + 40 ≤ s.appdata.toNat) := by
    simp [State.split, imp_iff_not_or]
  simp only [tcpResponseOk, Bool.and_eq_true, decide_eq_true_eq, hsplit, and_assoc]

theorem tcpAnswered_iff : tcpAnswered s ↔ s.length = 0 ∨ tcpResponseOk s = true := or_congr_right tcpResponseOk_iff.symm

theorem tcpFinished_of_empty (h : s.length = 0) : tcpFinished s = s := if_pos h

theorem tcpFinished_of_packet (h : s.length ≠ 0) : tcpFinished s = tcpFilled s := by
  have hzeroed : tcpZeroed s = (s.storeBytes (hdr s + 10) [0, 0]).storeBytes (hdr s + 36) [0, 0] := by
    rw [tcpZeroed, storeHeader, storeHeader_cfg]
    rfl
  have hcfg : (tcpZeroed s).cfg = s.cfg := (tcpZeroed_change s).cfg
  rw [tcpFinished, if_neg h, tcpFilled, storeIpChecksum, storeHeader, storeHeader_cfg, storeHeader, hcfg, hzeroed]
  rfl

theorem tcpFinalise_of_answered (h : tcpAnswered s) : (tcpFinalise s).state = tcpFinished s := by
  rcases tcpFinalise_cases s with ⟨h0, e⟩ | ⟨h0, -, e⟩ | ⟨h0, hno, e⟩
  · rw [e, tcpFinished_of_empty h0, Run.on_state]
  · rw [e, tcpFinished_of_packet h0, Run.on_state]
  · exact absurd ((tcpAnswered_iff.1 h).resolve_left h0) (by simp [hno])

theorem tcpFinalise_of_not_answered (h : ¬ tcpAnswered s) : (tcpFinalise s).state = faulted s 5 := by
  obtain ⟨h0, hno⟩ := not_or.1 (mt tcpAnswered_iff.2 h)
  rw [tcpFinalise, if_neg h0, if_neg hno]
  rfl

/-- How a command ends whose last act is a request of a TCP kind that leaves `r`. -/
def EndsAsTcp (i : Instr) (s r : State) : Prop :=
  (tcpAnswered r → exec i s = .next (tcpFinished r)) ∧ (¬ tcpAnswered r → exec i s = .next (faulted r 5))

theorem endsAsTcp_of_exec {i : Instr} {k : PbeKind} {n : Nat} {x : State}
    (e : exec i s = .next (tcpRequest k n x).state) : EndsAsTcp i s (pbe k n x) := by
  refine ⟨fun h => ?_, fun h => ?_⟩
  · rw [e, tcpRequest, tcpFinalise_of_answered h]
  · rw [e, tcpRequest, tcpFinalise_of_not_answered h]

/-! ### `UDP_FINALISE` (41_dispatch.md R154 to R157) -/

theorem udpPayload_eq (s : State) : udpPayload s = payload s := by
  simp only [udpPayload, payload, State.split, decide_eq_true_eq]

/-- The range checks of 41_dispatch.md R155 as inequalities. -/
theorem udpFits_iff : udpFits s = true ↔ payloadFits s := by
  have hsplit : (!s.split || decide (s.sndptr.toNat + s.sndlen.toNat ≤ s.cfg.sndSize)) = true ↔
      (s.sndlen ≠ 0 → s.sndptr.toNat + s.sndlen.toNat ≤ s.cfg.sndSize) := by
    simp [State.split, imp_iff_not_or]
  rw [udpFits, Bool.and_eq_true, decide_eq_true_eq, hsplit, udpPayload_eq]
  rfl

theorem storeBytes_setIpid (s : State) (v : Half) (a : Nat) (l : List Byte) :
    (s.setIpid v).storeBytes a l = (s.storeBytes a l).setIpid v := by
  induction l generalizing s a with
  | nil => rfl
  | cons b rest ih => exact ih (s.storeBuf a b) (a + 1)

theorem udpHeaders_eq (s : State) (e : UdpSlot) : udpHeaders s.cfg e (s.ipid + 1) (payload s) = udpHeaderBytes s e := rfl

/-- The headers of 41_dispatch.md R156 around the payload of `s`. -/
theorem udpBuild_eq_stored (u : Nat) (s : State) : udpBuild (s.udpSlot u) (udpPayload s) s =
    { s.storeBytes (hdr s) (udpHeaderBytes s (s.udpSlot u)) with
      ipid := s.ipid + 1
      appdata := BitVec.ofNat 16 (hdr s + 28)
      length := BitVec.ofNat 16 (hdr s + 28 + payload s) } := by
  rw [udpBuild, udpPayload_eq, udpHeaders_eq, storeBytes_setIpid]
  generalize s.storeBytes (hdr s) (udpHeaderBytes s (s.udpSlot u)) = x
  rfl

theorem udpBuild_cfg (e : UdpSlot) (n : Nat) (s : State) : (udpBuild e n s).cfg = s.cfg := by rw [udpBuild_eq]

theorem udpFinished_of_empty (h : payload s = 0) (u : Nat) : udpFinished u s = s.setLength 0 := if_pos h

theorem udpFinished_of_payload (h : payload s ≠ 0) (u : Nat) : udpFinished u s = udpFilled u s := by
  rw [udpFinished, if_neg h, ← udpBuild_eq_stored, udpFilled]
  dsimp only
  rw [storeIpChecksum, storeHeader, storeHeader_cfg, storeHeader, udpBuild_cfg]
  rfl

theorem udpFinalise_of_fits (hr : Room s.cfg) (h : payload s = 0 ∨ payloadFits s) (u : Nat) :
    (udpFinalise u s).state = udpFinished u s := by
  rcases udpFinalise_cases hr.max u with ⟨h0, e⟩ | ⟨h0, -, e⟩ | ⟨h0, hno, e⟩ <;> rw [udpPayload_eq] at h0
  · rw [e, udpFinished_of_empty h0, Run.on_state]
  · rw [e, udpFinished_of_payload h0, Run.on_state]
  · exact absurd (udpFits_iff.2 (h.resolve_left h0)) (by simp [hno])

theorem udpFinalise_of_not_fits (h0 : payload s ≠ 0) (h : ¬ payloadFits s) (u : Nat) :
    (udpFinalise u s).state = faulted s 4 := by
  rw [udpFinalise, udpPayload_eq, if_neg h0, if_neg (mt udpFits_iff.1 h)]
  rfl

/-- How a command ends whose last act is `UDP_FINALISE` for slot `u` in the state `r`. -/
def EndsAsUdp (i : Instr) (s : State) (u : Nat) (r : State) : Prop :=
  (payload r = 0 ∨ payloadFits r → exec i s = .next (udpFinished u r)) ∧
  (payload r ≠ 0 ∧ ¬ payloadFits r → exec i s = .next (faulted r 4))

theorem endsAsUdp_of_exec {i : Instr} {u : Nat} {r : State} (hr : Room r.cfg)
    (e : exec i s = .next (udpFinalise u r).state) : EndsAsUdp i s u r := by
  refine ⟨fun h => ?_, fun ⟨h0, h⟩ => ?_⟩
  · rw [e, udpFinalise_of_fits hr h]
  · rw [e, udpFinalise_of_not_fits h0 h]

/-! ### The slot commands of an active slot -/

section SlotCommands

variable {k : Nat}

theorem pendingSend_of_live (h : liveTcp s k) : pendingSend k s = tcpRequest .pollSend k (emptied s) := by
  obtain ⟨hk, hact⟩ := h
  rw [pendingSend, if_neg (not_le.2 hk), if_pos hact]
  rfl

theorem udpPoll_of_live (h : liveUdp s k) : udpPoll k s = udpFinalise k (pbe .udpPoll k (emptied s)) := by
  obtain ⟨hk, hact⟩ := h
  rw [udpPoll, if_neg (not_le.2 hk), if_pos hact]
  rfl

theorem udpSend_of_live (h : liveUdp s k) : udpSend k s = udpFinalise k s := by
  obtain ⟨hk, hact⟩ := h
  rw [udpSend, if_neg (not_le.2 hk), if_pos hact]

end SlotCommands

/-- Settles O41: the command is one `POLL_SEND` request. -/
theorem evPollServesPendingSend : Obligations.EvPollServesPendingSend := by
  intro s slot _ hlive
  refine endsAsTcp_of_exec ?_
  rw [exec_eq_packetRun rfl, packetRun, pendingSend_of_live hlive]

/-- Settles O46: both commands are one `UDP_POLL` request and `UDP_FINALISE`. -/
theorem udpPollOffersAChanceToSend : Obligations.UdpPollOffersAChanceToSend := by
  intro s slot i hi hinv hlive
  have hroom : Room (pbe .udpPoll slot.toNat (emptied s)).cfg := by
    rw [(pbe_frame _ _ _).cfg]
    exact Config.ok_room hinv.cfg
  refine endsAsUdp_of_exec hroom ?_
  have hrun : exec i s = .next (udpPoll slot.toNat s).state := by rcases hi with rfl | rfl <;> rfl
  rw [hrun, udpPoll_of_live hlive]

/-- Settles O47: the command is `UDP_FINALISE` of the payload in place. -/
theorem udpSendBuildsTheDatagram : Obligations.UdpSendBuildsTheDatagram := by
  intro s slot hinv hlive
  have hrun : exec (.evUdpsend slot) s = .next (udpFinalise slot.toNat s).state := by
    rw [exec_eq_packetRun rfl, packetRun, udpSend_of_live hlive]
  obtain ⟨hends, hfaults⟩ := endsAsUdp_of_exec (Config.ok_room hinv.cfg) hrun
  refine ⟨fun _ hfits => hends (.inr hfits), fun hsnd hlen => ?_, fun h0 hno => hfaults ⟨h0, hno⟩⟩
  have h0 : payload s = 0 := by
    rw [payload, if_neg (not_not_intro hsnd)]
    omega
  rw [hends (.inl h0), udpFinished_of_empty h0]
  rfl

end Sys2Proof.Machine
end

section
/-! `EV_DATA` (41_dispatch.md R131 to R149): the parser's tests in the words of the statements, the slot an accepted packet goes
to, and how the command ends on each path. -/

namespace Sys2Proof.Machine

open Sys2Proof.Claims

variable {s : State} {k : Nat}

/-! ### The parser's tests (41_dispatch.md R133 to R147) -/

/-- Steps 1 to 6 drop exactly the frames that fail one of their tests. -/
theorem ipDrop_eq_none_iff : ipDrop s = none ↔ ipGood s := by
  unfold ipDrop ipGood
  split_ifs <;> grind

/-- Without a split, which step 0 clears, `UPPER` sums the segment from `buf`. -/
theorem upper_of_inbound (hlen : s.length.toNat ≤ bufSize s.cfg) (hsnd : s.sndlen = 0) (h : ipGood s) (p : Byte) :
    upper p s = some (segmentChecksum s p) := by
  obtain ⟨-, -, -, h20, htot, -⟩ := h
  have hview : viewOk s = true := viewOk_iff.2 ⟨hlen, fun hne => absurd hsnd hne⟩
  have hsegment : logicalRange s (hdr s + 20) (totalLength s - 20) = bufRange s (hdr s + 20) (totalLength s - 20) :=
    List.map_congr_left fun _ _ => logicalByte_of_contiguous hsnd
  rw [upper_eq_some (upperOk_iff.2 ⟨hview, h20, htot⟩), upperBytes, hsegment]
  rfl

/-- Steps 8 and 9 drop exactly the segments that fail one of their tests. -/
theorem tcpDrop_eq_none_iff (hlen : s.length.toNat ≤ bufSize s.cfg) (hsnd : s.sndlen = 0) (h : ipGood s) :
    tcpDrop s = none ↔ tcpGood s := by
  unfold tcpDrop tcpGood
  rw [upper_of_inbound hlen hsnd h, protoTcp]
  split_ifs <;> grind

/-- Steps 13 and 14 drop exactly the datagrams that fail one of their tests. -/
theorem udpDrop_eq_none_iff (hlen : s.length.toNat ≤ bufSize s.cfg) (hsnd : s.sndlen = 0) (h : ipGood s) :
    udpDrop s = none ↔ udpGood s := by
  unfold udpDrop udpGood
  rw [upper_of_inbound hlen hsnd h, protoUdp]
  split_ifs <;> grind

/-! ### The slot a packet goes to (41_dispatch.md R143, R145, R148) -/

/-- The least index of a list that passes a test, with the entry read by `getD` as the tables are. -/
theorem findIdx?_eq_some_iff_getD {α : Type} {p : α → Bool} {l : List α} {d : α} :
    l.findIdx? p = some k ↔ k < l.length ∧ p (l.getD k d) = true ∧ ∀ j, j < k → ¬ p (l.getD j d) = true := by
  rw [List.findIdx?_eq_some_iff_getElem]
  grind

theorem findIdx?_eq_none_iff_getD {α : Type} {p : α → Bool} {l : List α} {d : α} :
    l.findIdx? p = none ↔ ∀ k, k < l.length → ¬ p (l.getD k d) = true := by
  rw [List.findIdx?_eq_none_iff]
  simp only [List.forall_mem_iff_getElem]
  grind

theorem identityMatch_iff {laddr raddr : Word} {lport rport : Half} :
    identityMatch s laddr raddr lport rport = true ↔ identity s laddr raddr lport rport := by
  simp only [identityMatch, identity, Bool.and_eq_true, decide_eq_true_eq, and_assoc]

theorem tcpMatches_tcpSlot_iff : tcpMatches s (s.tcpSlot k) = true ↔ tcpHit s k := by
  rw [tcpMatches, Bool.and_eq_true, identityMatch_iff]
  rfl

theorem udpMatches_udpSlot_iff : udpMatches s (s.udpSlot k) = true ↔ udpHit s k := by
  rw [udpMatches, Bool.and_eq_true, identityMatch_iff]
  rfl

theorem findTcp_eq_some_iff : findTcp s = some k ↔ k < s.tcp.length ∧ tcpHit s k ∧ ∀ j, j < k → ¬ tcpHit s j := by
  simp only [findTcp, findIdx?_eq_some_iff_getD (d := TcpSlot.zero), ← tcpMatches_tcpSlot_iff]
  rfl

theorem findTcp_eq_none_iff : findTcp s = none ↔ ∀ k, k < s.tcp.length → ¬ tcpHit s k := by
  simp only [findTcp, findIdx?_eq_none_iff_getD (d := TcpSlot.zero), ← tcpMatches_tcpSlot_iff]
  rfl

theorem freeTcp_eq_some_iff : freeTcp s = some k ↔
    k < s.tcp.length ∧ (s.tcpSlot k).active = false ∧ ∀ j, j < k → (s.tcpSlot j).active = true := by
  simp only [freeTcp, findIdx?_eq_some_iff_getD (d := TcpSlot.zero), Bool.not_eq_true', Bool.not_eq_false]
  rfl

theorem freeTcp_eq_none_iff : freeTcp s = none ↔ ∀ k, k < s.tcp.length → (s.tcpSlot k).active = true := by
  simp only [freeTcp, findIdx?_eq_none_iff_getD (d := TcpSlot.zero), Bool.not_eq_true', Bool.not_eq_false]
  rfl

theorem findUdp_eq_some_iff : findUdp s = some k ↔ k < s.udp.length ∧ udpHit s k ∧ ∀ j, j < k → ¬ udpHit s j := by
  simp only [findUdp, findIdx?_eq_some_iff_getD (d := UdpSlot.zero), ← udpMatches_udpSlot_iff]
  rfl

theorem findUdp_eq_none_iff : findUdp s = none ↔ ∀ k, k < s.udp.length → ¬ udpHit s k := by
  simp only [findUdp, findIdx?_eq_none_iff_getD (d := UdpSlot.zero), ← udpMatches_udpSlot_iff]
  rfl

/-! ### How `EV_DATA` ends (41_dispatch.md R131) -/

/-- Settles O30: step 0 comes before the first write. -/
theorem overlongFrameFaults : Obligations.OverlongFrameFaults := by
  intro s h
  rw [exec_eq_packetRun rfl, packetRun, if_pos h]
  rfl

/-- A frame that fails the IP tests is dropped before the demultiplexing. -/
theorem inbound_of_not_ipGood (h : ¬ ipGood s) : inbound (s.setSndlen 0) = dropFrame (s.setSndlen 0) := by
  obtain ⟨c, hc⟩ := Option.ne_none_iff_exists'.1 (mt (ipDrop_eq_none_iff (s := s.setSndlen 0)).1 h)
  rw [inbound, hc]

theorem inbound_of_ipGood (h : ipGood s) : inbound (s.setSndlen 0) = demux (s.setSndlen 0) := by
  rw [inbound, (ipDrop_eq_none_iff (s := s.setSndlen 0)).2 h]

section Inbound

variable (hlen : s.length.toNat ≤ bufSize s.cfg)
include hlen

theorem exec_evData_of_le : exec .evData s = .next (inbound (s.setSndlen 0)).state := by
  rw [exec_eq_packetRun rfl, packetRun, if_neg (not_lt.2 hlen)]

theorem tcpIn_of_not_tcpGood (h : ipGood s) (hno : ¬ tcpGood s) : tcpIn (s.setSndlen 0) = dropFrame (s.setSndlen 0) := by
  obtain ⟨c, hc⟩ :=
    Option.ne_none_iff_exists'.1 (mt (tcpDrop_eq_none_iff (s := s.setSndlen 0) hlen rfl h).1 hno)
  rw [tcpIn, hc]

theorem tcpIn_of_tcpGood (h : ipGood s) (hgood : tcpGood s) : tcpIn (s.setSndlen 0) = tcpDeliver (acceptedTcp s) := by
  rw [tcpIn, (tcpDrop_eq_none_iff (s := s.setSndlen 0) hlen rfl h).2 hgood]
  rfl

theorem udpIn_of_not_udpGood (h : ipGood s) (hno : ¬ udpGood s) : udpIn (s.setSndlen 0) = dropFrame (s.setSndlen 0) := by
  obtain ⟨c, hc⟩ :=
    Option.ne_none_iff_exists'.1 (mt (udpDrop_eq_none_iff (s := s.setSndlen 0) hlen rfl h).1 hno)
  rw [udpIn, hc]

theorem udpIn_of_udpGood (h : ipGood s) (hgood : udpGood s) : udpIn (s.setSndlen 0) = udpDeliver (acceptedUdp s) := by
  rw [udpIn, (udpDrop_eq_none_iff (s := s.setSndlen 0) hlen rfl h).2 hgood]
  rfl

end Inbound

theorem demux_of_isTcp (h : isTcp s) : demux (s.setSndlen 0) = tcpIn (s.setSndlen 0) := if_pos h

theorem demux_of_isUdp (hno : ¬ isTcp s) (h : isUdp s) : demux (s.setSndlen 0) = udpIn (s.setSndlen 0) :=
  (if_neg hno).trans (if_pos h)

theorem demux_of_neither (hno : ¬ isTcp s) (h : ¬ isUdp s) : demux (s.setSndlen 0) = dropFrame (s.setSndlen 0) :=
  (if_neg hno).trans (if_neg h)

/-- An accepted segment is delivered (41_dispatch.md R142). -/
theorem exec_evData_of_inboundTcp (h : inboundTcp s) : exec .evData s = .next (tcpDeliver (acceptedTcp s)).state := by
  obtain ⟨hlen, hip, htcp, hgood⟩ := h
  rw [exec_evData_of_le hlen, inbound_of_ipGood hip, demux_of_isTcp htcp, tcpIn_of_tcpGood hlen hip hgood]

/-- An accepted datagram is delivered (41_dispatch.md R147). -/
theorem exec_evData_of_inboundUdp (h : inboundUdp s) : exec .evData s = .next (udpDeliver (acceptedUdp s)).state := by
  obtain ⟨hlen, hip, htcp, hudp, hgood⟩ := h
  rw [exec_evData_of_le hlen, inbound_of_ipGood hip, demux_of_isUdp htcp hudp, udpIn_of_udpGood hlen hip hgood]

/-! ### Drops -/

/-- A frame dropped at one of steps 1 to 14 (41_dispatch.md R149). -/
theorem exec_evData_of_drop (hlen : s.length.toNat ≤ bufSize s.cfg)
    (h : ¬ ipGood s ∨ (¬ isTcp s ∧ ¬ isUdp s) ∨ (isTcp s ∧ ¬ tcpGood s) ∨ (¬ isTcp s ∧ isUdp s ∧ ¬ udpGood s)) :
    exec .evData s = .next { s with length := 0, sndlen := 0 } := by
  have hdrop : inbound (s.setSndlen 0) = dropFrame (s.setSndlen 0) := by
    by_cases hip : ipGood s
    · rw [inbound_of_ipGood hip]
      rcases h with hno | ⟨htcp, hudp⟩ | ⟨htcp, hno⟩ | ⟨htcp, hudp, hno⟩
      · exact absurd hip hno
      · exact demux_of_neither htcp hudp
      · rw [demux_of_isTcp htcp, tcpIn_of_not_tcpGood hlen hip hno]
      · rw [demux_of_isUdp htcp hudp, udpIn_of_not_udpGood hlen hip hno]
    · exact inbound_of_not_ipGood hip
  rw [exec_evData_of_le hlen, hdrop]
  rfl

/-- Settles O31: the drops of steps 1 to 14, and the one of step 15. -/
theorem dropsAreSilent : Obligations.DropsAreSilent := by
  refine ⟨fun s hlen h => exec_evData_of_drop hlen h, fun s hinv h hmiss => ?_⟩
  have hnone : findUdp (acceptedUdp s) = none := findUdp_eq_none_iff.2 fun k hk => hmiss k (hinv.udp ▸ hk)
  rw [exec_evData_of_inboundUdp h, udpDeliver, hnone]
  rfl

/-- Settles O32: each of the three fails one of steps 1 to 6, so the frame is dropped. -/
theorem malformedInputLeavesTheTables : Obligations.MalformedInputLeavesTheTables := by
  intro s hlen h
  have hbad : ¬ ipGood s := by
    rintro ⟨hshort, hversion, -, -, -, -, -, hsum⟩
    rcases h with h | h | h
    · omega
    · exact h hversion
    · exact h hsum
  exact ⟨_, exec_evData_of_drop hlen (.inl hbad), rfl, rfl, rfl, rfl⟩

/-! ### Deliveries -/

/-- Settles O33: the least matching slot is found. -/
theorem segmentGoesToItsConnection : Obligations.SegmentGoesToItsConnection := by
  intro s k hinv h hk hhit hleast t fresh
  have hfind : findTcp (acceptedTcp s) = some k := findTcp_eq_some_iff.2 ⟨hinv.tcp.symm ▸ hk, hhit, hleast⟩
  have hfresh : refreshSlot s.cfg t = fresh := by rw [refreshSlot, ← ite_not]
  refine endsAsTcp_of_exec (x := { acceptedTcp s with tcp := s.tcp.set k fresh }) ?_
  rw [exec_evData_of_inboundTcp h, tcpDeliver, hfind, ← hfresh]
  rfl

section Unmatched

variable (hinv : s.Inv) (hmiss : ∀ k, k < s.cfg.nTcp → ¬ tcpHit s k)
include hinv hmiss

theorem findTcp_of_unmatched : findTcp (acceptedTcp s) = none :=
  findTcp_eq_none_iff.2 fun k hk => hmiss k (hinv.tcp ▸ hk)

variable (h : inboundTcp s)
include h

/-- A segment that no slot matches is offered the least free slot (41_dispatch.md R145). -/
theorem exec_evData_of_free (hfree : freeTcp (acceptedTcp s) = some k) :
    exec .evData s = .next (tcpRequest .segNew k (acceptedTcp s)).state := by
  rw [exec_evData_of_inboundTcp h, tcpDeliver, findTcp_of_unmatched hinv hmiss, hfree]

/-- With no free slot it is rejected (41_dispatch.md R145). -/
theorem exec_evData_of_full (hfull : freeTcp (acceptedTcp s) = none) :
    exec .evData s = .next (tcpRequest .segReject 0 (acceptedTcp s)).state := by
  rw [exec_evData_of_inboundTcp h, tcpDeliver, findTcp_of_unmatched hinv hmiss, hfull]

end Unmatched

/-- Settles O34: no slot matches, and the least inactive one is found. -/
theorem unmatchedSegmentIsOfferedAFreeSlot : Obligations.UnmatchedSegmentIsOfferedAFreeSlot := by
  intro s f hinv h hmiss hf hidle hleast
  have hfree : freeTcp (acceptedTcp s) = some f := freeTcp_eq_some_iff.2 ⟨hinv.tcp.symm ▸ hf, hidle, hleast⟩
  exact endsAsTcp_of_exec (exec_evData_of_free hinv hmiss h hfree)

/-- Settles O35: no slot matches and none is free; a request that names no slot leaves both tables. -/
theorem unmatchedSegmentIsRejectedWhenFull : Obligations.UnmatchedSegmentIsRejectedWhenFull := by
  intro s hinv h hmiss hactive
  have hfull : freeTcp (acceptedTcp s) = none := freeTcp_eq_none_iff.2 fun k hk => hactive k (hinv.tcp ▸ hk)
  obtain ⟨hends, hfaults⟩ := endsAsTcp_of_exec (exec_evData_of_full hinv hmiss h hfull)
  have hframe := pbe_frame .segReject 0 (acceptedTcp s)
  refine ⟨hends, hfaults, ?_, ?_⟩
  · rcases hframe.tcp with e | ⟨hnames, -⟩
    · exact e
    · cases hnames
  · rcases hframe.udp with e | ⟨hnames, -⟩
    · exact e
    · cases hnames

/-- Settles O36: the least matching slot is found, and the reply is finalised. -/
theorem datagramGoesToItsSlot : Obligations.DatagramGoesToItsSlot := by
  intro s k hinv h hk hhit hleast
  have hfind : findUdp (acceptedUdp s) = some k := findUdp_eq_some_iff.2 ⟨hinv.udp.symm ▸ hk, hhit, hleast⟩
  have hroom : Room (pbe .udpIn k (acceptedUdp s)).cfg := by
    rw [(pbe_frame _ _ _).cfg]
    exact Config.ok_room hinv.cfg
  refine endsAsUdp_of_exec hroom ?_
  rw [exec_evData_of_inboundUdp h, udpDeliver, hfind]

end Sys2Proof.Machine
end

section
/-! The two checksums of a finished packet verify (41_dispatch.md R152, R157; 40_checksum.md R116). -/

namespace Sys2Proof.Machine

open Sys2Proof.Claims

/-! ### A checksum field among the bytes summed -/

/-- What may be stored in a checksum field whose checksum is `c`: `c`, or for 0 the other zero of the sum, 0xFFFF
(41_dispatch.md R157). -/
def Storable (c v : Half) : Prop := v = c ∨ c = 0 ∧ v = 0xFFFF

/-- Storing the checksum of a list with its field zeroed makes the list verify (40_checksum.md R116), and so does 0xFFFF where
0 does. -/
theorem csum16_stored_eq_zero {a b : List Byte} (ha : a.length % 2 = 0) {v : Half}
    (hv : Storable (csum16 (a ++ [0, 0] ++ b)) v) : csum16 (a ++ bytes16 v ++ b) = 0 := by
  have hzero : csum16 (a ++ bytes16 (csum16 (a ++ [0, 0] ++ b)) ++ b) = 0 := (roundTripChecksumLaw a b ha).2
  rcases hv with rfl | ⟨hc, rfl⟩
  · exact hzero
  · have hsum (w : Half) : wsum (a ++ bytes16 w ++ b) = w.toNat + (wsum a + wsum b) := by
      rw [bytes16, wsum_append_pair ha, be16, hi_lo]
    rw [hc, csum16_eq_zero_iff, hsum, fold_eq_max_iff] at hzero
    rw [csum16_eq_zero_iff, hsum, fold_eq_max_iff]
    change 0 < 0 + _ ∧ (0 + _) % 65535 = 0 at hzero
    change 0 < 65535 + _ ∧ (65535 + _) % 65535 = 0
    omega

theorem storable_self (c : Half) : Storable c c := .inl rfl

theorem storable_udpStored (cfg : Config) (c : Half) : Storable c (udpStored cfg c) := by
  unfold udpStored
  split_ifs with h
  · exact .inr ⟨h.1, rfl⟩
  · exact storable_self c

theorem udpStored_ne_zero {c : Config} (h : c.udpZeroAsFfff = true) (v : Half) : udpStored c v ≠ 0 := by
  unfold udpStored
  split_ifs with hv
  · decide
  · exact fun h0 => hv ⟨h0, h⟩

/-! ### The bytes summed, with the two bytes of a field picked out -/

/-- The bytes of a range before, at and after two of them. -/
theorem map_range_split_pair (f : Nat → Byte) (a m n : Nat) : (List.range (m + 2 + n)).map (fun i => f (a + i)) =
    (List.range m).map (fun i => f (a + i)) ++ [f (a + m), f (a + m + 1)] ++
      (List.range n).map (fun i => f (a + m + 2 + i)) := by
  rw [List.range_add, List.map_append, List.range_succ, List.range_succ]
  simp [Function.comp_def, Nat.add_assoc]

theorem bufRange_split_pair (s : State) (a m n : Nat) : bufRange s a (m + 2 + n) =
    bufRange s a m ++ [s.bufByte (a + m), s.bufByte (a + m + 1)] ++ bufRange s (a + m + 2) n :=
  map_range_split_pair s.bufByte a m n

theorem logicalRange_split_pair (s : State) (a m n : Nat) : logicalRange s a (m + 2 + n) =
    logicalRange s a m ++ [logicalByte s (a + m), logicalByte s (a + m + 1)] ++ logicalRange s (a + m + 2) n :=
  map_range_split_pair (logicalByte s) a m n

theorem logicalRange_congr {s t : State} {a n : Nat} (h : ∀ i, i < n → logicalByte t (a + i) = logicalByte s (a + i)) :
    logicalRange t a n = logicalRange s a n :=
  List.map_congr_left fun i hi => h i (List.mem_range.1 hi)

section Changed

variable {s t : State} {lo n : Nat} (h : BufChange s t lo n)
include h

/-- Outside the bytes changed the view is as it was. -/
theorem BufChange.logicalByte {x : Nat} (hx : x < lo ∨ lo + n ≤ x) : logicalByte t x = logicalByte s x := by
  have hb := h.byte x hx
  unfold Machine.logicalByte
  rw [hb, h.eq]
  rfl

theorem BufChange.bufRange {a m : Nat} (hx : a + m ≤ lo ∨ lo + n ≤ a) : bufRange t a m = bufRange s a m :=
  bufRange_congr fun i hi => h.byte _ (by omega)

theorem BufChange.logicalRange {a m : Nat} (hx : a + m ≤ lo ∨ lo + n ≤ a) :
    logicalRange t a m = logicalRange s a m :=
  logicalRange_congr fun i hi => h.logicalByte (by omega)

theorem BufChange.pseudoHeader (hx : lo + n ≤ s.cfg.llHdrLen + 12 ∨ s.cfg.llHdrLen + 20 ≤ lo) (p : Byte) (m : Nat) :
    pseudoHeader t p m = pseudoHeader s p m := by
  unfold Machine.pseudoHeader
  rw [h.cfg, h.bufRange (by omega), h.bufRange (by omega)]

/-- The IP header after the total length and before the addresses is not among the bytes `UPPER` sums. -/
theorem BufChange.upperBytes (hlo : s.cfg.llHdrLen + 4 ≤ lo) (hhi : lo + n ≤ s.cfg.llHdrLen + 12) (p : Byte) :
    upperBytes t p = upperBytes s p := by
  unfold Machine.upperBytes
  rw [h.totalLength (.inl hlo), h.pseudoHeader (.inl hhi), h.cfg, h.logicalRange (.inr (by omega))]

end Changed

theorem pseudoHeader_length (s : State) (p : Byte) (n : Nat) : (pseudoHeader s p n).length = 12 := by
  simp [pseudoHeader, bytes16]

section Field

variable (s : State) {k : Nat}

theorem storeHeader_field (v : Half) : [(storeHeader s k v).bufByte (s.cfg.llHdrLen + k),
    (storeHeader s k v).bufByte (s.cfg.llHdrLen + k + 1)] = bytes16 v := by
  rw [bufByte_storeHeader, bufByte_storeHeader, if_pos rfl, if_neg (by omega), if_pos rfl, bytes16]

/-- A field of the upper-layer header at an even offset, in `buf` under the view: the bytes `UPPER` sums are two parts with the field
between them, and a store to the field keeps the parts (40_checksum.md R112). -/
theorem upperBytes_split_field (p : Byte) (heven : k % 2 = 0) (h20 : 20 ≤ k) (htot : k + 2 ≤ totalLength s)
    (hview : s.sndlen ≠ 0 → s.cfg.llHdrLen + k + 2 ≤ s.appdata.toNat) :
    ∃ a b : List Byte, a.length % 2 = 0 ∧
      upperBytes s p = a ++ [s.bufByte (s.cfg.llHdrLen + k), s.bufByte (s.cfg.llHdrLen + k + 1)] ++ b ∧
      ∀ v, upperBytes (storeHeader s k v) p = a ++ bytes16 v ++ b := by
  have hraw {t : State} (hsnd : t.sndlen = s.sndlen) (happ : t.appdata = s.appdata) {x : Nat}
      (hx : x < s.cfg.llHdrLen + k + 2) : logicalByte t x = t.bufByte x := by
    by_cases hs : s.sndlen = 0
    · exact logicalByte_of_contiguous (hsnd.trans hs)
    · exact logicalByte_of_header (by have := hview hs; rw [happ]; omega)
  have hcut (t : State) : logicalRange t (s.cfg.llHdrLen + 20) (totalLength s - 20) =
      logicalRange t (s.cfg.llHdrLen + 20) (k - 20) ++
        [logicalByte t (s.cfg.llHdrLen + k), logicalByte t (s.cfg.llHdrLen + k + 1)] ++
        logicalRange t (s.cfg.llHdrLen + k + 2) (totalLength s - (k + 2)) := by
    have hlen : totalLength s - 20 = k - 20 + 2 + (totalLength s - (k + 2)) := by omega
    have hat : s.cfg.llHdrLen + 20 + (k - 20) = s.cfg.llHdrLen + k := by omega
    rw [hlen, logicalRange_split_pair, hat]
  refine ⟨pseudoHeader s p (totalLength s - 20) ++ logicalRange s (s.cfg.llHdrLen + 20) (k - 20),
    logicalRange s (s.cfg.llHdrLen + k + 2) (totalLength s - (k + 2)), ?_, ?_, fun v => ?_⟩
  · simp only [List.length_append, pseudoHeader_length, logicalRange, List.length_map, List.length_range]
    omega
  · rw [upperBytes, hcut, hraw rfl rfl (by omega), hraw rfl rfl (by omega)]
    simp only [List.append_assoc]
  · have hchange := storeHeader_change s k v
    have hsnd : (storeHeader s k v).sndlen = s.sndlen := by rw [hchange.eq]
    have happ : (storeHeader s k v).appdata = s.appdata := by rw [hchange.eq]
    rw [upperBytes, hchange.totalLength (.inl (by omega)), hchange.pseudoHeader (.inr (by omega)), storeHeader_cfg, hcut,
      hchange.logicalRange (.inl (by omega)), hchange.logicalRange (.inr (by omega)), hraw hsnd happ (by omega),
      hraw hsnd happ (by omega), storeHeader_field]
    simp only [List.append_assoc]

/-- Stored over a zeroed field, the IP checksum verifies. -/
theorem ipChecksum_storeIpChecksum (h10 : s.bufByte (s.cfg.llHdrLen + 10) = 0) (h11 : s.bufByte (s.cfg.llHdrLen + 11) = 0) :
    ipChecksum (storeIpChecksum s) = 0 := by
  have hchange := storeIpChecksum_change s
  have hcut (t : State) : bufRange t s.cfg.llHdrLen 20 =
      bufRange t s.cfg.llHdrLen 10 ++ [t.bufByte (s.cfg.llHdrLen + 10), t.bufByte (s.cfg.llHdrLen + 10 + 1)] ++
        bufRange t (s.cfg.llHdrLen + 12) 8 :=
    bufRange_split_pair t s.cfg.llHdrLen 10 8
  have hstored : bufRange (storeIpChecksum s) s.cfg.llHdrLen 20 =
      bufRange s s.cfg.llHdrLen 10 ++ bytes16 (ipChecksum s) ++ bufRange s (s.cfg.llHdrLen + 12) 8 := by
    rw [hcut, hchange.bufRange (.inl le_rfl), hchange.bufRange (.inr le_rfl), storeIpChecksum, storeHeader_field]
  have hzeroed : csum16 (bufRange s s.cfg.llHdrLen 10 ++ [0, 0] ++ bufRange s (s.cfg.llHdrLen + 12) 8) = ipChecksum s := by
    rw [ipChecksum, hcut, h10, h11]
  rw [ipChecksum, hchange.cfg, hstored]
  exact csum16_stored_eq_zero (by simp) (.inl hzeroed.symm)

end Field

/-! ### Both checksums stored -/

/-- What is asked of a packet before its upper-layer checksum goes to offset `k` and its IP checksum to offset 10: both fields 0, the
checks of `UPPER` met, the field at an even offset inside the segment and, with a split, before it. -/
structure ChecksumsOpen (s : State) (k : Nat) : Prop where
  even : k % 2 = 0
  inSegment : 20 ≤ k
  inPacket : k + 2 ≤ totalLength s
  inBuf : s.sndlen ≠ 0 → s.cfg.llHdrLen + k + 2 ≤ s.appdata.toNat
  ok : upperOk s = true
  field : [s.bufByte (s.cfg.llHdrLen + k), s.bufByte (s.cfg.llHdrLen + k + 1)] = [0, 0]
  ipHigh : s.bufByte (s.cfg.llHdrLen + 10) = 0
  ipLow : s.bufByte (s.cfg.llHdrLen + 11) = 0

section Stored

variable {s : State} {k : Nat}

/-- The upper-layer checksum first, then the IP checksum: both verify. -/
theorem ChecksumsOpen.verifies (h : ChecksumsOpen s k) {p : Byte} {v : Half} (hv : Storable (csum16 (upperBytes s p)) v) :
    upper p (storeIpChecksum (storeHeader s k v)) = some 0 ∧ ipChecksum (storeIpChecksum (storeHeader s k v)) = 0 := by
  have h20 := h.inSegment
  have hfirst := storeHeader_change s k v
  have hsecond := storeIpChecksum_change (storeHeader s k v)
  have hcfg := hfirst.cfg
  refine ⟨?_, ipChecksum_storeIpChecksum _ ?_ ?_⟩
  · obtain ⟨a, b, ha, hbytes, hstored⟩ := upperBytes_split_field s p h.even h.inSegment h.inPacket h.inBuf
    have hok : upperOk (storeIpChecksum (storeHeader s k v)) = true := by
      rw [hsecond.upperOk (by omega), hfirst.upperOk (by omega), h.ok]
    rw [upper_eq_some hok, hsecond.upperBytes (by omega) (by omega), hstored]
    rw [hbytes, h.field] at hv
    rw [csum16_stored_eq_zero ha hv]
  · rw [hcfg, hfirst.byte _ (by omega), h.ipHigh]
  · rw [hcfg, hfirst.byte _ (by omega), h.ipLow]

/-- The IP checksum leaves a field of the upper-layer header as it was stored. -/
theorem headerNat_storeIpChecksum_storeHeader (h20 : 20 ≤ k) (v : Half) :
    headerNat (storeIpChecksum (storeHeader s k v)) k = v.toNat := by
  have hsecond := storeIpChecksum_change (storeHeader s k v)
  have hcfg : (storeHeader s k v).cfg = s.cfg := storeHeader_cfg s k v
  have hfield := storeHeader_field s (k := k) v
  simp only [bytes16, List.cons.injEq, and_true] at hfield
  obtain ⟨hhigh, hlow⟩ := hfield
  unfold headerNat headerByte
  rw [hcfg] at hsecond
  rw [hsecond.cfg, hcfg, ← Nat.add_assoc, hsecond.byte _ (by omega), hsecond.byte _ (by omega), hhigh, hlow, be16, hi_lo]

end Stored

/-! ### A finished segment -/

theorem tcpZeroed_totalLength (s : State) : totalLength (tcpZeroed s) = totalLength s := by
  rw [tcpZeroed, (storeHeader_change _ 36 0).totalLength (by omega), (storeHeader_change _ 10 0).totalLength (by omega)]

theorem tcpZeroed_checksumsOpen {s : State} (h : tcpResponseOk s = true) : ChecksumsOpen (tcpZeroed s) 36 := by
  have hchange := tcpZeroed_change s
  have hcfg := hchange.cfg
  have hsnd : (tcpZeroed s).sndlen = s.sndlen := by rw [hchange.eq]
  have happ : (tcpZeroed s).appdata = s.appdata := by rw [hchange.eq]
  have hcfg10 := storeHeader_cfg s 10 0
  have hbyte {x : Nat} (hx : x < s.cfg.llHdrLen + 36) : (tcpZeroed s).bufByte x = (storeHeader s 10 0).bufByte x :=
    (storeHeader_change _ 36 0).byte x (.inl (by rwa [hcfg10]))
  obtain ⟨-, hlen, htot, hsplit⟩ := tcpResponseOk_iff.1 h
  constructor
  case even => rfl
  case inSegment => omega
  case inPacket => rw [tcpZeroed_totalLength]; omega
  case inBuf =>
    rw [hsnd, happ, hcfg]
    intro hne
    have hhdr : s.cfg.llHdrLen + 40 ≤ s.appdata.toNat := hsplit hne
    omega
  case ok => rw [tcpZeroed_upperOk, tcpResponseOk_upperOk h]
  case field => rw [hcfg, ← hcfg10]; exact storeHeader_field _ 0
  case ipHigh => rw [hcfg, hbyte (by omega), bufByte_storeHeader, if_pos rfl]; rfl
  case ipLow => rw [hcfg, hbyte (by omega), bufByte_storeHeader, if_neg (by omega), if_pos rfl]; rfl

/-- Settles O37: with both fields zeroed, `TCP_FINALISE` stores the TCP checksum and then the IP checksum. -/
theorem finishedSegmentVerifies : Obligations.FinishedSegmentVerifies := by
  intro s _ h0 h
  have hok : tcpResponseOk s = true := (tcpAnswered_iff.1 h).resolve_left h0
  rw [tcpFinished_of_packet h0]
  exact (tcpZeroed_checksumsOpen hok).verifies (storable_self _)

/-! ### A finished datagram -/

section Datagram

variable {s : State} (u : Nat)

theorem udpBuild_header (e : UdpSlot) (n : Nat) (s : State) {j : Nat} (h : j < 28) :
    (udpBuild e n s).bufByte (s.cfg.llHdrLen + j) = (udpHeaders s.cfg e (s.ipid + 1) n).getD j 0 := by
  have hj : j < (udpHeaders s.cfg e (s.ipid + 1) n).length := h
  rw [udpBuild_byte, if_pos (by omega), Nat.add_sub_cancel_left, List.getD_eq_getElem?_getD, List.getElem?_eq_getElem hj]
  rfl

theorem udpBuild_totalLength (e : UdpSlot) {n : Nat} (hn : 28 + n ≤ 65535) (s : State) :
    totalLength (udpBuild e n s) = 28 + n := by
  unfold totalLength headerNat headerByte
  rw [udpBuild_cfg, udpBuild_header e n s (by omega), udpBuild_header e n s (by omega)]
  change be16 (hi8 (BitVec.ofNat 16 (28 + n))) (lo8 (BitVec.ofNat 16 (28 + n))) = _
  rw [be16, hi_lo, BitVec.toNat_ofNat]
  omega

theorem udpBuild_checksumsOpen (hr : Room s.cfg) (h : payloadFits s) :
    ChecksumsOpen (udpBuild (s.udpSlot u) (udpPayload s) s) 26 := by
  have hcfg := udpBuild_cfg (s.udpSlot u) (udpPayload s) s
  have happ : (udpBuild (s.udpSlot u) (udpPayload s) s).appdata = BitVec.ofNat 16 (s.cfg.llHdrLen + 28) := by
    rw [udpBuild_eq]
  have hmax := hr.max
  have hfit : s.cfg.llHdrLen + 28 + payload s ≤ bufSize s.cfg := h.1
  constructor
  case even => rfl
  case inSegment => omega
  case inPacket => rw [udpPayload_eq, udpBuild_totalLength _ (by omega)]; omega
  case inBuf => rw [happ, hcfg, BitVec.toNat_ofNat]; omega
  case ok => exact udpBuild_upperOk hr.max (udpFits_iff.2 h) u
  case field => rw [hcfg, Nat.add_assoc, udpBuild_header _ _ s (by omega), udpBuild_header _ _ s (by omega)]; rfl
  case ipHigh => rw [hcfg, udpBuild_header _ _ s (by omega)]; rfl
  case ipLow => rw [hcfg, udpBuild_header _ _ s (by omega)]; rfl

end Datagram

/-- Settles O38: the headers of `UDP_FINALISE` have both fields 0, and the stored UDP checksum is the computed one or 0xFFFF for 0. -/
theorem finishedDatagramVerifies : Obligations.FinishedDatagramVerifies := by
  intro s u hok h0 hfits
  have hopen := udpBuild_checksumsOpen u (Config.ok_room hok) hfits
  rw [udpFinished_of_payload h0, udpFilled]
  obtain ⟨hupper, hip⟩ := hopen.verifies (storable_udpStored s.cfg _)
  refine ⟨hupper, hip, fun hflag => ?_⟩
  rw [headerNat_storeIpChecksum_storeHeader hopen.inSegment]
  exact fun hzero => udpStored_ne_zero hflag _ (BitVec.eq_of_toNat_eq hzero)

end Sys2Proof.Machine
end

section
/-! `EV_TIMER` (41_dispatch.md R160): the loop passes inactive slots, goes on past a quiet poll, and stops at a packet or a
fault. -/

namespace Sys2Proof.Machine

open Sys2Proof.Claims

/-! ### A command that goes on has not faulted -/

/-- A piece of pseudocode that does not end the command leaves `FAULT` as it found it (60_exceptions.md R247). -/
def Run.FaultKeptIfOn (s : State) (r : Run) : Prop := ∀ t, r = .on t → t.faultBit = s.faultBit

theorem faultKeptIfOn_on {s t : State} (h : t.faultBit = s.faultBit) : (Run.on t).FaultKeptIfOn s := fun _ e => by
  cases e
  exact h

theorem faultKeptIfOn_raise (s : State) (c : ContractFault) (t : State) : (raise c t).FaultKeptIfOn s := fun _ e => by
  cases e

theorem faultKeptIfOn_andThen {s : State} {r : Run} {f : State → Run} (h : r.FaultKeptIfOn s)
    (g : ∀ t, (f t).FaultKeptIfOn t) : (r.andThen f).FaultKeptIfOn s := by
  cases r with
  | on t => exact fun u e => (g t u e).trans (h t rfl)
  | raised t => exact fun _ e => by cases e

theorem faultKeptIfOn_tcpRequest (k : PbeKind) (n : Nat) (s : State) : (tcpRequest k n s).FaultKeptIfOn s := by
  have hpbe := (pbe_frame k n s).faultBit
  unfold tcpRequest
  rcases tcpFinalise_cases (pbe k n s) with ⟨-, e⟩ | ⟨-, -, e⟩ | ⟨-, -, e⟩ <;> rw [e]
  · exact faultKeptIfOn_on hpbe
  · refine faultKeptIfOn_on ?_
    rw [(tcpFilled_change _).eq]
    exact hpbe
  · exact faultKeptIfOn_raise s _ _

theorem faultKeptIfOn_udpFinalise {s : State} (hr : Room s.cfg) (u : Nat) : (udpFinalise u s).FaultKeptIfOn s := by
  rcases udpFinalise_cases hr.max u with ⟨-, e⟩ | ⟨-, -, e⟩ | ⟨-, -, e⟩ <;> rw [e]
  · exact faultKeptIfOn_on rfl
  · refine faultKeptIfOn_on ?_
    rw [(udpFilled_change u s).eq]
    rfl
  · exact faultKeptIfOn_raise s _ _

theorem faultKeptIfOn_pollActive (k : Nat) (t : TcpSlot) (s : State) : (pollActive k t s).FaultKeptIfOn s := by
  rcases pollActive_cases k t s with ⟨v, e⟩ | ⟨r, v, -, e⟩ <;> rw [e]
  · exact faultKeptIfOn_andThen (faultKeptIfOn_tcpRequest .abort k (s.setTcp k v)) fun _ => faultKeptIfOn_on rfl
  · exact faultKeptIfOn_tcpRequest r k (s.setTcp k v)

theorem faultKeptIfOn_tcpPoll (k : Nat) (s : State) : (tcpPoll k s).FaultKeptIfOn s := by
  unfold tcpPoll
  split_ifs
  · exact faultKeptIfOn_raise s _ _
  · exact faultKeptIfOn_pollActive k _ ((s.setLength 0).setSndlen 0)
  · exact faultKeptIfOn_on rfl

theorem faultKeptIfOn_udpPoll {s : State} (hr : Room s.cfg) (k : Nat) : (udpPoll k s).FaultKeptIfOn s := by
  unfold udpPoll
  split_ifs
  · exact faultKeptIfOn_raise s _ _
  · have hframe := pbe_frame .udpPoll k ((s.setLength 0).setSndlen 0)
    have hroom : Room (pbe .udpPoll k ((s.setLength 0).setSndlen 0)).cfg := by
      rw [hframe.cfg]
      exact hr
    exact fun t e => (faultKeptIfOn_udpFinalise hroom k t e).trans hframe.faultBit
  · exact faultKeptIfOn_on rfl

theorem faultKeptIfOn_pollIndex {s : State} (hr : Room s.cfg) (k : Nat) : (pollIndex k s).FaultKeptIfOn s := by
  unfold pollIndex
  split_ifs
  · exact faultKeptIfOn_tcpPoll k s
  · exact faultKeptIfOn_udpPoll hr _

/-- A poll in an unfaulted block goes on exactly when it leaves an unfaulted one. -/
theorem pollIndex_eq {s : State} (hr : Room s.cfg) (hf : s.faultBit = false) (k : Nat) :
    pollIndex k s = if (pollIndex k s).state.faultBit then .raised (pollIndex k s).state else .on (pollIndex k s).state := by
  have hraised := faultsIfRaised_pollIndex k s
  have hon := faultKeptIfOn_pollIndex hr k
  cases hp : pollIndex k s with
  | on t => rw [Run.on_state, hon t hp, hf, if_neg Bool.false_ne_true]
  | raised t => rw [Run.raised_state, hraised t hp, if_pos rfl]

/-! ### The poll of a scan index -/

section Poll

variable {s : State} {n : Nat}

theorem sub_nTcp_lt_nUdp (hn : n < totalSlots s.cfg) (ht : ¬ n < s.cfg.nTcp) :
    n - s.cfg.nTcp < s.cfg.nUdp ∧ s.cfg.udpEn = true := by
  unfold totalSlots at hn
  split_ifs at hn with hu
  · exact ⟨by omega, hu⟩
  · omega

/-- The poll command of a scan index is the poll the loop makes (41_dispatch.md R160). -/
theorem exec_pollCommand (hok : s.cfg.ok = true) (hn : n < totalSlots s.cfg) :
    exec (pollCommand s n) s = .next (pollIndex n s).state := by
  unfold pollCommand pollIndex
  split_ifs with ht
  · have hslot : (BitVec.ofNat 8 n).toNat = n := by
      have := Config.ok_nTcp_le hok
      rw [BitVec.toNat_ofNat]
      omega
    rw [exec_eq_packetRun rfl, packetRun, hslot]
  · obtain ⟨hlt, hu⟩ := sub_nTcp_lt_nUdp hn ht
    have hslot : (BitVec.ofNat 8 (n - s.cfg.nTcp)).toNat = n - s.cfg.nTcp := by
      have := Config.ok_nUdp_le hok hu
      rw [BitVec.toNat_ofNat]
      omega
    rw [exec_eq_packetRun rfl, packetRun, hslot]

/-- The poll of an inactive slot empties `LENGTH` and does nothing else (42_polling.md R182, R196). -/
theorem pollIndex_of_idle (hn : n < totalSlots s.cfg) (h : scanIdle s n) : pollIndex n s = .on (s.setLength 0) := by
  unfold pollIndex
  unfold scanIdle at h
  split_ifs at h ⊢ with ht
  · rw [tcpPoll, if_neg (not_le.2 ht), if_neg (by rw [h]; exact Bool.false_ne_true)]
  · have hlt := (sub_nTcp_lt_nUdp hn ht).1
    rw [udpPoll, if_neg (not_le.2 hlt), if_neg (by rw [h]; exact Bool.false_ne_true)]

end Poll

/-! ### The loop -/

/-- Inactive slots move the cursor and do nothing else, one round each. -/
theorem timerLoop_of_idle {s : State} (d m : Nat) (hN : totalSlots s.cfg < 1024) (hlen : s.length = 0)
    (hd : s.scan.toNat + d ≤ totalSlots s.cfg)
    (h : ∀ j, s.scan.toNat ≤ j → j < s.scan.toNat + d → scanIdle s j) :
    timerLoop (m + d) s = timerLoop m (s.setScan (BitVec.ofNat 10 (s.scan.toNat + d))) := by
  induction d generalizing s with
  | zero => rw [Nat.add_zero, Nat.add_zero, BitVec.ofNat_toNat, BitVec.setWidth_eq, setScan_self]
  | succ d ih =>
    have hidle := pollIndex_of_idle (by omega) (h s.scan.toNat le_rfl (by omega))
    have hnext : (s.scan + 1).toNat = s.scan.toNat + 1 := by bv_omega
    have hempty : (s.setLength 0).setScan (s.scan + 1) = s.setScan (s.scan + 1) := by rw [← hlen]; rfl
    rw [← Nat.add_assoc, timerLoop_step _ (by omega), hidle]
    simp only [Run.map, Run.on_andThen, State.setScan_length, State.setLength_length, if_true]
    rw [hempty, ih (s := s.setScan (s.scan + 1)) hN hlen (by rw [State.setScan_scan, State.setScan_cfg, hnext]; omega) ?_]
    · rw [State.setScan_scan, hnext, show s.scan.toNat + 1 + d = s.scan.toNat + (d + 1) by omega]
      rfl
    · rw [State.setScan_scan, hnext]
      exact fun j hlo hhi => h j (by omega) (by omega)

theorem timerLoop_of_end {s : State} (h : totalSlots s.cfg ≤ s.scan.toNat) (m : Nat) : timerLoop m s = .on s := by
  cases m with
  | zero => rfl
  | succ m => rw [timerLoop, if_neg (not_lt.2 h)]

/-- The loop past inactive slots up to `n`: it is at the poll of `n`, with rounds left for the slots after it. -/
theorem timerLoop_of_idle_before {s : State} {n : Nat} (hok : s.cfg.ok = true) (hle : s.scan.toNat ≤ n)
    (hn : n < totalSlots s.cfg) (h : ∀ j, s.scan.toNat ≤ j → j < n → scanIdle s j) :
    ∃ m, totalSlots s.cfg ≤ n + 1 + m ∧ timerLoop (totalSlots s.cfg) (s.setLength 0) =
      ((pollIndex n s).map (·.setScan (BitVec.ofNat 10 (n + 1)))).andThen
        (fun t => if t.length = 0 then timerLoop m t else .on t) := by
  have hN := (Config.ok_totalSlots hok).2
  have hat : s.scan.toNat + (n - s.scan.toNat) = n := by omega
  have hcursor : (BitVec.ofNat 10 n).toNat = n := by rw [BitVec.toNat_ofNat]; omega
  have hrounds : totalSlots s.cfg = totalSlots s.cfg - 1 - (n - s.scan.toNat) + 1 + (n - s.scan.toNat) := by omega
  have hskip := timerLoop_of_idle (s := s.setLength 0) (n - s.scan.toNat)
    (totalSlots s.cfg - 1 - (n - s.scan.toNat) + 1) hN rfl
    (show s.scan.toNat + (n - s.scan.toNat) ≤ totalSlots s.cfg by omega)
    fun j hlo hhi => h j hlo (by rwa [State.setLength_scan, hat] at hhi)
  rw [← hrounds, State.setLength_scan, hat] at hskip
  refine ⟨totalSlots s.cfg - 1 - (n - s.scan.toNat), by omega, ?_⟩
  have hpoll : pollIndex n ((s.setLength 0).setScan (BitVec.ofNat 10 n)) =
      (pollIndex n s).map (·.setScan (BitVec.ofNat 10 n)) := by rw [pollIndex_setScan, pollIndex_setLength hn]
  have hmoved : BitVec.ofNat 10 n + 1 = BitVec.ofNat 10 (n + 1) := (BitVec.ofNat_add n 1).symm
  rw [hskip, timerLoop_step _ (by rwa [State.setScan_scan, hcursor]), State.setScan_scan, hcursor, hpoll, hmoved]
  cases pollIndex n s <;> rfl

/-! ### How `EV_TIMER` ends -/

section Ends

variable {s t : State} {n : Nat}

theorem exec_evTimer (s : State) :
    exec .evTimer s = .next ((timerLoop (totalSlots s.cfg) (s.setLength 0)).andThen scanWrap).state := rfl

theorem scanWrap_of_end (h : s.scan.toNat = totalSlots s.cfg) : scanWrap s = .on (s.setScan 0) := by
  rw [scanWrap, if_pos h]

variable (hinv : s.Inv) (hle : s.scan.toNat ≤ n) (hn : n < totalSlots s.cfg)
  (hidle : ∀ j, s.scan.toNat ≤ j → j < n → scanIdle s j)
include hinv hle hn hidle

/-- A poll that raises ends the command, the cursor one past its slot (60_exceptions.md R247; log 15). -/
theorem exec_evTimer_of_raised (hp : pollIndex n s = .raised t) :
    exec .evTimer s = .next (t.setScan (BitVec.ofNat 10 (n + 1))) := by
  obtain ⟨m, -, hloop⟩ := timerLoop_of_idle_before hinv.cfg hle hn hidle
  rw [exec_evTimer, hloop, hp]
  rfl

/-- A poll that leaves a packet ends the loop. -/
theorem exec_evTimer_of_packet (hp : pollIndex n s = .on t) (hlen : t.length ≠ 0) :
    exec .evTimer s = .next (t.setScan (cursorAfter s n)) := by
  obtain ⟨m, -, hloop⟩ := timerLoop_of_idle_before hinv.cfg hle hn hidle
  have hcfg : t.cfg = s.cfg := by simpa [hp] using (keeps_pollIndex (Config.ok_room hinv.cfg) n).cfg
  have hcursor : (BitVec.ofNat 10 (n + 1)).toNat = n + 1 := by
    have := (Config.ok_totalSlots hinv.cfg).2
    rw [BitVec.toNat_ofNat]
    omega
  rw [exec_evTimer, hloop, hp, Run.map, Run.on_andThen, State.setScan_length, if_neg hlen, Run.on_andThen, scanWrap,
    State.setScan_scan, State.setScan_cfg, hcfg, hcursor, cursorAfter]
  split_ifs <;> rfl

/-- A quiet poll leaves the loop at the next slot, with rounds left for it. -/
theorem exec_evTimer_of_quiet (hp : pollIndex n s = .on t) (hlen : t.length = 0) :
    ∃ m, totalSlots s.cfg ≤ n + 1 + m ∧
      exec .evTimer s = .next ((timerLoop m (t.setScan (BitVec.ofNat 10 (n + 1)))).andThen scanWrap).state := by
  obtain ⟨m, hm, hloop⟩ := timerLoop_of_idle_before hinv.cfg hle hn hidle
  refine ⟨m, hm, ?_⟩
  rw [exec_evTimer, hloop, hp, Run.map, Run.on_andThen, State.setScan_length, if_pos hlen]

/-- A quiet poll of the last slot ends the tick. -/
theorem exec_evTimer_of_last (hlast : n + 1 = totalSlots s.cfg) (hp : pollIndex n s = .on t) (hlen : t.length = 0) :
    exec .evTimer s = .next (t.setScan 0) := by
  obtain ⟨m, -, e⟩ := exec_evTimer_of_quiet hinv hle hn hidle hp hlen
  have hcfg : t.cfg = s.cfg := by simpa [hp] using (keeps_pollIndex (Config.ok_room hinv.cfg) n).cfg
  have hend : (t.setScan (BitVec.ofNat 10 (n + 1))).scan.toNat =
      totalSlots (t.setScan (BitVec.ofNat 10 (n + 1))).cfg := by
    have := (Config.ok_totalSlots hinv.cfg).2
    rw [State.setScan_scan, State.setScan_cfg, hcfg, BitVec.toNat_ofNat]
    omega
  rw [e, timerLoop_of_end hend.ge, Run.on_andThen, scanWrap_of_end hend]
  rfl

end Ends

/-- Settles O48: the last slot's poll is quiet, as those before it. -/
theorem idleTickEndsInOneCommand : Obligations.IdleTickEndsInOneCommand := by
  intro s hinv hscan hidle
  have hlast := pollIndex_of_idle (n := totalSlots s.cfg - 1) (by omega) (hidle _ (by omega) (by omega))
  exact exec_evTimer_of_last hinv (by omega) (by omega) (fun j hlo hhi => hidle j hlo (by omega)) (by omega) hlast rfl

/-- Settles O49: the poll of `n` is the first that is not of an inactive slot. -/
theorem timerStopsAtThePacketOrFault : Obligations.TimerStopsAtThePacketOrFault := by
  intro s t n hinv hle hn hidle e hf
  have hpoll := pollIndex_eq (Config.ok_room hinv.cfg) hf n
  rw [exec_pollCommand hinv.cfg hn, Host.Outcome.next.injEq] at e
  rw [e] at hpoll
  refine ⟨fun ht hlen => ?_, fun ht => ?_⟩
  · rw [ht, if_neg Bool.false_ne_true] at hpoll
    exact exec_evTimer_of_packet hinv hle hn hidle hpoll hlen
  · rw [ht, if_pos rfl] at hpoll
    exact exec_evTimer_of_raised hinv hle hn hidle hpoll

/-- Settles O50: after the cursor's slot the loop is where a fresh `EV_TIMER` begins, or at its end. -/
theorem timerGoesOnPastAQuietPoll : Obligations.TimerGoesOnPastAQuietPoll := by
  intro s t hinv hscan e ht hf hlen
  have hroom := Config.ok_room hinv.cfg
  have hnone : ∀ j, s.scan.toNat ≤ j → j < s.scan.toNat → scanIdle s j := fun j hlo hhi => absurd hhi (not_lt.2 hlo)
  have hp := pollIndex_eq hroom hf s.scan.toNat
  rw [exec_pollCommand hinv.cfg hscan, Host.Outcome.next.injEq] at e
  rw [e, ht, if_neg Bool.false_ne_true] at hp
  refine ⟨fun hnext => ?_, fun hlast => exec_evTimer_of_last hinv le_rfl hscan hnone hlast hp hlen⟩
  have hN := (Config.ok_totalSlots hinv.cfg).2
  have hcfg : t.cfg = s.cfg := by simpa [hp] using (keeps_pollIndex hroom s.scan.toNat).cfg
  have hcursor : BitVec.ofNat 10 (s.scan.toNat + 1) = s.scan + 1 := by bv_omega
  have hmoved : (s.scan + 1).toNat = s.scan.toNat + 1 := by bv_omega
  have hempty : (t.setScan (s.scan + 1)).setLength 0 = t.setScan (s.scan + 1) := by rw [← hlen]; rfl
  obtain ⟨m, hm, hquiet⟩ := exec_evTimer_of_quiet hinv le_rfl hscan hnone hp hlen
  have hfuel : timerLoop m (t.setScan (s.scan + 1)) =
      timerLoop (totalSlots (t.setScan (s.scan + 1)).cfg) (t.setScan (s.scan + 1)) := by
    rw [State.setScan_cfg, hcfg]
    refine timerLoop_fuel ?_ ?_ ?_ ?_ <;> simp only [State.setScan_cfg, State.setScan_scan, hcfg, hmoved]
    · exact hroom
    · exact hN
    · exact hm
    · omega
  rw [hquiet, hcursor, hfuel, ← hempty]
  rfl

end Sys2Proof.Machine
end

section
/-! The two polls (42_polling.md R181 to R196): what a poll of an inactive and of an active slot does, and how many requests it
makes. -/

namespace Sys2Proof.Machine

open Sys2Proof.Claims

variable {s : State} {k : Nat} {t : TcpSlot}

/-! ### An inactive slot (42_polling.md R182, R196, 41_dispatch.md R163, R164) -/

section Inactive

variable {slot : Byte}

theorem exec_tcpPoll_of_inactive (hk : slot.toNat < s.cfg.nTcp) (h : (s.tcpSlot slot.toNat).active = false) :
    exec (.tcpPoll slot) s = .next (s.setLength 0) := by
  rw [exec_eq_packetRun rfl, packetRun, tcpPoll, if_neg (not_le.2 hk), if_neg (by simp [h]), Run.on_state]

theorem exec_evPoll_of_inactive (hk : slot.toNat < s.cfg.nTcp) (h : (s.tcpSlot slot.toNat).active = false) :
    exec (.evPoll slot) s = .next (s.setLength 0) := by
  rw [exec_eq_packetRun rfl, packetRun, pendingSend, if_neg (not_le.2 hk), if_neg (by simp [h]), Run.on_state]

theorem exec_udpPoll_of_inactive (hk : slot.toNat < s.cfg.nUdp) (h : (s.udpSlot slot.toNat).active = false) :
    exec (.udpPoll slot) s = .next (s.setLength 0) := by
  rw [exec_eq_packetRun rfl, packetRun, udpPoll, if_neg (not_le.2 hk), if_neg (by simp [h]), Run.on_state]

theorem exec_evUdpsend_of_inactive (hk : slot.toNat < s.cfg.nUdp) (h : (s.udpSlot slot.toNat).active = false) :
    exec (.evUdpsend slot) s = .next (s.setLength 0) := by
  rw [exec_eq_packetRun rfl, packetRun, udpSend, if_neg (not_le.2 hk), if_neg (by simp [h]), Run.on_state]

/-- `EV_UDPTIMER` is `UDP_POLL` (41_dispatch.md R166). -/
theorem exec_evUdptimer_eq (slot : Byte) (s : State) : exec (.evUdptimer slot) s = exec (.udpPoll slot) s := rfl

end Inactive

/-- Settles O40: each command empties `LENGTH` and ends, whatever `LENGTH` was. -/
theorem inactiveSlotPollIsANoOp : Obligations.InactiveSlotPollIsANoOp := by
  refine ⟨fun s slot hk h => ⟨?_, ?_, ?_⟩, fun s slot hk h => ⟨?_, ?_, ?_⟩⟩
  · exact exec_tcpPoll_of_inactive hk h
  · exact exec_evPoll_of_inactive hk h
  · exact exec_tcpPoll_of_inactive (s := s.setLength 0) hk h
  · exact exec_udpPoll_of_inactive hk h
  · rw [exec_evUdptimer_eq]
    exact exec_udpPoll_of_inactive hk h
  · exact exec_evUdpsend_of_inactive hk h

/-! ### An active slot (42_polling.md R181 to R189) -/

theorem exec_tcpPoll_of_live {slot : Byte} (h : liveTcp s slot.toNat) :
    exec (.tcpPoll slot) s = .next (pollActive slot.toNat (s.tcpSlot slot.toNat) (emptied s)).state := by
  obtain ⟨hk, hact⟩ := h
  rw [exec_eq_packetRun rfl, packetRun, tcpPoll, if_neg (not_le.2 hk), if_pos hact]
  rfl

theorem agedHeld_rtxCount (t : TcpSlot) : (agedHeld t).rtxCount = t.rtxCount := by
  unfold agedHeld
  split_ifs <;> rfl

/-- The retransmission timer's expiry comes before the keepalive's (42_polling.md R187). -/
theorem pollActive_of_rtx (h : t.rtxTimer = 1) : pollActive k t s = pollRetransmit k (agedHeld t) s := if_pos h

theorem pollActive_of_ka (hrtx : t.rtxTimer ≠ 1) (hka : t.kaTimer = 1) : pollActive k t s = pollKeepalive k (aged t) s := by
  rw [pollActive, if_neg hrtx, if_pos hka]
  rfl

theorem pollActive_of_no_expiry (hrtx : t.rtxTimer ≠ 1) (hka : t.kaTimer ≠ 1) :
    pollActive k t s = tcpRequest .pollSend k (s.setTcp k (aged t)) := by
  rw [pollActive, if_neg hrtx, if_neg hka]
  rfl

/-- Settles O42: neither timer's test succeeds, and the request is `POLL_SEND`. -/
theorem tcpPollServesPendingSend : Obligations.TcpPollServesPendingSend := by
  intro s slot _ hlive hrtx hka
  refine endsAsTcp_of_exec ?_
  rw [exec_tcpPoll_of_live hlive, pollActive_of_no_expiry hrtx hka]
  rfl

/-- The entry of `RTO_RELOAD` for an incremented count that has not wrapped. -/
theorem rtoReload_succ (c : Config) {n : Byte} (h : n.toNat < 255) : rtoReload c (n + 1) = c.rtoReload.getD n.toNat 1 := by
  have hn : (n + 1).toNat - 1 = n.toNat := by bv_omega
  rw [rtoReload, hn]

/-- The count is below an 8-bit bound, so it does not wrap (42_polling.md R185). -/
theorem retransmitSlot_agedHeld (c : Config) (h : t.rtxCount.toNat < c.maxRtx.toNat) : retransmitSlot c (agedHeld t) =
    { agedHeld t with rtxCount := t.rtxCount + 1, rtxTimer := c.rtoReload.getD t.rtxCount.toNat 1 } := by
  rw [retransmitSlot, agedHeld_rtxCount, rtoReload_succ c (by have := c.maxRtx.isLt; omega)]

theorem pollRetransmit_of_lt (h : t.rtxCount.toNat < s.cfg.maxRtx.toNat) :
    pollRetransmit k t s = tcpRequest .retransmit k (s.setTcp k (retransmitSlot s.cfg t)) := if_neg (not_le.2 h)

theorem pollRetransmit_of_bound (h : s.cfg.maxRtx.toNat ≤ t.rtxCount.toNat) :
    pollRetransmit k t s = teardown k (s.setTcp k t) := if_pos h

theorem pollKeepalive_of_lt (h : t.kaCount.toNat < s.cfg.maxKa.toNat) :
    pollKeepalive k t s = tcpRequest .keepalive k (s.setTcp k (probeSlot s.cfg t)) := if_neg (not_le.2 h)

theorem pollKeepalive_of_bound (h : s.cfg.maxKa.toNat ≤ t.kaCount.toNat) :
    pollKeepalive k t s = teardown k (s.setTcp k t) := if_pos h

/-- Settles O43: the count is below its bound, and the request is `RETRANSMIT`. -/
theorem tcpPollRetransmits : Obligations.TcpPollRetransmits := by
  intro s slot _ hlive hrtx hcount
  refine endsAsTcp_of_exec ?_
  rw [exec_tcpPoll_of_live hlive, pollActive_of_rtx hrtx, pollRetransmit_of_lt (by rw [agedHeld_rtxCount]; exact hcount),
    retransmitSlot_agedHeld (emptied s).cfg hcount]
  rfl

/-- Settles O44: the count is below its bound, and the request is `KEEPALIVE`. -/
theorem tcpPollProbes : Obligations.TcpPollProbes := by
  intro s slot _ hlive hrtx hka hcount
  refine endsAsTcp_of_exec ?_
  rw [exec_tcpPoll_of_live hlive, pollActive_of_ka hrtx hka, pollKeepalive_of_lt (by exact hcount)]
  rfl

/-! ### Teardown (42_polling.md R188) -/

/-- The command goes on after `TCP_FINALISE`, so that teardown closes the slot. -/
theorem tcpFinalise_eq_on (h : tcpAnswered s) : tcpFinalise s = .on (tcpFinished s) := by
  rcases tcpFinalise_cases s with ⟨h0, e⟩ | ⟨h0, -, e⟩ | ⟨h0, hno, -⟩
  · rw [e, tcpFinished_of_empty h0]
  · rw [e, tcpFinished_of_packet h0]
  · exact absurd ((tcpAnswered_iff.1 h).resolve_left h0) (by simp [hno])

/-- The command ends in `TCP_FINALISE`, so that teardown leaves the slot as it is. -/
theorem tcpFinalise_eq_raise (h : ¬ tcpAnswered s) : tcpFinalise s = raise .badResponse s := by
  obtain ⟨h0, hno⟩ := not_or.1 (mt tcpAnswered_iff.2 h)
  rw [tcpFinalise, if_neg h0, if_neg hno]

/-- `TCP_FINALISE` writes bytes of `buf` only. -/
theorem tcpFinished_tcp (s : State) : (tcpFinished s).tcp = s.tcp := by
  by_cases h : s.length = 0
  · rw [tcpFinished_of_empty h]
  · rw [tcpFinished_of_packet h, (tcpFilled_change s).eq]

theorem teardown_of_answered (h : tcpAnswered (pbe .abort k s)) : (teardown k s).state =
    { tcpFinished (pbe .abort k s) with tcp := (pbe .abort k s).tcp.set k (closed ((pbe .abort k s).tcpSlot k)) } := by
  rw [teardown, tcpRequest, tcpFinalise_eq_on h, State.tcpSlot, ← tcpFinished_tcp]
  rfl

theorem teardown_of_not_answered (h : ¬ tcpAnswered (pbe .abort k s)) :
    (teardown k s).state = faulted (pbe .abort k s) 5 := by
  rw [teardown, tcpRequest, tcpFinalise_eq_raise h]
  rfl

/-- At the bound of the timer that expired the slot is torn down (42_polling.md R185, R186). -/
theorem pollActive_of_bound (h : t.rtxTimer = 1 ∧ s.cfg.maxRtx.toNat ≤ t.rtxCount.toNat ∨
      t.rtxTimer ≠ 1 ∧ t.kaTimer = 1 ∧ s.cfg.maxKa.toNat ≤ t.kaCount.toNat) :
    pollActive k t s = teardown k (s.setTcp k (if t.rtxTimer = 1 then agedHeld t else aged t)) := by
  rcases h with ⟨hrtx, hcount⟩ | ⟨hrtx, hka, hcount⟩
  · rw [pollActive_of_rtx hrtx, pollRetransmit_of_bound (by rw [agedHeld_rtxCount]; exact hcount), if_pos hrtx]
  · rw [pollActive_of_ka hrtx hka, pollKeepalive_of_bound (by exact hcount), if_neg hrtx]

/-- Settles O45: the poll is `TEARDOWN`, which closes the slot only after an answer that can be finalised. -/
theorem tcpPollTearsDownAtTheBound : Obligations.TcpPollTearsDownAtTheBound := by
  intro s slot _ hlive t hbound r u
  have hexec : exec (.tcpPoll slot) s = .next (teardown slot.toNat
      (emptiedWith s slot.toNat (if t.rtxTimer = 1 then agedHeld t else aged t))).state := by
    rw [exec_tcpPoll_of_live hlive, pollActive_of_bound (s := emptied s) hbound]
    rfl
  refine ⟨fun h => ?_, fun h => ?_⟩ <;> rw [hexec]
  · rw [teardown_of_answered h]
  · rw [teardown_of_not_answered h]

/-! ### How many requests (42_polling.md R191) -/

/-- From `s` to `t` the log has grown by one request at most. -/
def AtMostOneRequest (s t : State) : Prop := t.requests = s.requests ∨ ∃ r, t.requests = r :: s.requests

theorem udpFinalise_requests (hr : Room s.cfg) (u : Nat) : (udpFinalise u s).state.requests = s.requests := by
  rcases udpFinalise_cases hr.max u with ⟨-, e⟩ | ⟨-, -, e⟩ | ⟨-, -, e⟩ <;> rw [e]
  · rfl
  · rw [Run.on_state, (udpFilled_change u s).eq]
    rfl
  · rfl

theorem udpRequest_requests (hr : Room s.cfg) (r : PbeKind) (u : Nat) :
    (udpFinalise u (pbe r u s)).state.requests = ⟨r, BitVec.ofNat 8 u⟩ :: s.requests := by
  have hframe := pbe_frame r u s
  rw [udpFinalise_requests (by rw [hframe.cfg]; exact hr), hframe.requests]

theorem teardown_requests (k : Nat) (s : State) :
    (teardown k s).state.requests = ⟨.abort, BitVec.ofNat 8 k⟩ :: s.requests := by
  rw [← tcpRequest_requests, teardown]
  cases tcpRequest .abort k s <;> rfl

theorem pollActive_request (k : Nat) (t : TcpSlot) (s : State) :
    ∃ r, (pollActive k t s).state.requests = r :: s.requests := by
  rcases pollActive_cases k t s with ⟨v, e⟩ | ⟨r, v, -, e⟩ <;> rw [e]
  · exact ⟨_, teardown_requests k (s.setTcp k v)⟩
  · exact ⟨_, tcpRequest_requests r k (s.setTcp k v)⟩

theorem atMostOneRequest_tcpPoll (k : Nat) (s : State) : AtMostOneRequest s (tcpPoll k s).state := by
  unfold tcpPoll
  split_ifs
  · exact .inl rfl
  · exact .inr (pollActive_request k _ ((s.setLength 0).setSndlen 0))
  · exact .inl rfl

theorem atMostOneRequest_udpPoll (hr : Room s.cfg) (k : Nat) : AtMostOneRequest s (udpPoll k s).state := by
  unfold udpPoll
  split_ifs
  · exact .inl rfl
  · exact .inr ⟨_, udpRequest_requests (s := (s.setLength 0).setSndlen 0) hr .udpPoll k⟩
  · exact .inl rfl

theorem atMostOneRequest_pendingSend (k : Nat) (s : State) : AtMostOneRequest s (pendingSend k s).state := by
  unfold pendingSend
  split_ifs
  · exact .inl rfl
  · exact .inr ⟨_, tcpRequest_requests .pollSend k ((s.setLength 0).setSndlen 0)⟩
  · exact .inl rfl

theorem udpSend_requests (hr : Room s.cfg) (k : Nat) : (udpSend k s).state.requests = s.requests := by
  unfold udpSend
  split_ifs
  · rfl
  · exact udpFinalise_requests hr k
  · rfl

theorem atMostOneRequest_tcpDeliver (s : State) : AtMostOneRequest s (tcpDeliver s).state := by
  unfold tcpDeliver
  split
  · exact .inr ⟨_, tcpRequest_requests .segIn _ (s.setTcp _ _)⟩
  · split <;> exact .inr ⟨_, tcpRequest_requests _ _ s⟩

theorem atMostOneRequest_udpDeliver (hr : Room s.cfg) : AtMostOneRequest s (udpDeliver s).state := by
  unfold udpDeliver
  split
  · exact .inr ⟨_, udpRequest_requests hr .udpIn _⟩
  · exact .inl rfl

theorem atMostOneRequest_inbound (hr : Room s.cfg) : AtMostOneRequest s (inbound s).state := by
  rcases inbound_cases s with e | ⟨v, e⟩ | ⟨v, e⟩ <;> rw [e]
  · exact .inl rfl
  · exact atMostOneRequest_tcpDeliver (s.setAppdata v)
  · exact atMostOneRequest_udpDeliver (s := s.setAppdata v) hr

theorem atMostOneRequest_evData (hr : Room s.cfg) : AtMostOneRequest s (packetRun .evData s).state := by
  simp only [packetRun]
  split_ifs
  · exact .inl rfl
  · exact atMostOneRequest_inbound (s := s.setSndlen 0) hr

/-- Settles O59: each command's request, if any, is the one act before it finalises. -/
theorem pollMakesAtMostOneRequest : Obligations.PollMakesAtMostOneRequest := by
  intro s t slot i hok e
  have hroom := Config.ok_room hok
  refine ⟨fun hi => ?_, fun hi => ?_⟩
  · show AtMostOneRequest s t
    rcases hi with rfl | rfl | rfl | rfl | rfl <;> rw [exec_eq_packetRun rfl, Host.Outcome.next.injEq] at e <;> subst e
    · exact atMostOneRequest_tcpPoll _ s
    · exact atMostOneRequest_udpPoll hroom _
    · exact atMostOneRequest_pendingSend _ s
    · exact atMostOneRequest_udpPoll hroom _
    · exact atMostOneRequest_evData hroom
  · rw [hi, exec_eq_packetRun rfl, Host.Outcome.next.injEq] at e
    subst e
    exact udpSend_requests hroom _

end Sys2Proof.Machine
end

section
/-! A tick of `EV_TIMER` commands and the explicit per-slot loop (42_polling.md R197, 41_dispatch.md R161): both poll the slots
that are left in order, so they go the same way poll by poll. -/

namespace Sys2Proof.Machine

open Sys2Proof.Claims

variable {s t : State}

/-! ### The explicit loop as polls of scan indices -/

/-- The poll commands of `d` scan indices from `n` on. -/
def pollsFrom (s : State) (n d : Nat) : List Instr := (List.range' n d).map (pollCommand s)

theorem pollsFrom_zero (s : State) (n : Nat) : pollsFrom s n 0 = [] := rfl

theorem pollsFrom_succ (s : State) (n d : Nat) : pollsFrom s n (d + 1) = pollCommand s n :: pollsFrom s (n + 1) d := rfl

/-- Which command polls an index depends on the parameters only. -/
theorem pollsFrom_congr (h : t.cfg = s.cfg) (n d : Nat) : pollsFrom t n d = pollsFrom s n d := by
  have hcommand : pollCommand t = pollCommand s := by
    funext j
    rw [pollCommand, h, pollCommand]
  rw [pollsFrom, hcommand, pollsFrom]

/-- The TCP slots come first, then the UDP slots (10_state.md R37). -/
theorem explicitLoop_eq (s : State) : explicitLoop s.cfg = pollsFrom s 0 (totalSlots s.cfg) := by
  have htcp : (List.range s.cfg.nTcp).map (pollCommand s) =
      (List.range s.cfg.nTcp).map fun n => .tcpPoll (BitVec.ofNat 8 n) :=
    List.map_congr_left fun n hn => if_pos (List.mem_range.1 hn)
  have hudp : ∀ n, pollCommand s (s.cfg.nTcp + n) = .udpPoll (BitVec.ofNat 8 n) := fun n => by
    rw [pollCommand, if_neg (by omega), Nat.add_sub_cancel_left]
  rw [pollsFrom, ← List.range_eq_range', totalSlots, explicitLoop]
  split_ifs
  · simp only [List.range_add, List.map_append, List.map_map, Function.comp_def, htcp, hudp]
  · rw [Nat.add_zero, List.append_nil, htcp]

/-! ### One command of each loop -/

theorem Run.map_state (f : State → State) (r : Run) : (r.map f).state = f r.state := by
  cases r <;> rfl

theorem runCommands_of_faulted (l : List Instr) (h : s.faultBit = true) (ps : List (List Byte)) :
    runCommands l s ps = (s, ps) := by
  cases l with
  | nil => rfl
  | cons i l => rw [runCommands, if_pos h]

theorem runCommands_cons {i : Instr} (l : List Instr) (h : s.faultBit = false) (e : exec i s = .next t)
    (ps : List (List Byte)) : runCommands (i :: l) s ps = runCommands l t (sent t ps) := by
  rw [runCommands, h, if_neg Bool.false_ne_true, e]

theorem sent_of_faulted (h : t.faultBit = true) (ps : List (List Byte)) : sent t ps = ps := if_neg (by simp [h])

theorem sent_of_empty (h : t.length = 0) (ps : List (List Byte)) : sent t ps = ps := if_neg (by simp [h])

/-- The cursor is no part of what is transmitted. -/
theorem sent_setScan (t : State) (v : BitVec 10) (ps : List (List Byte)) : sent (t.setScan v) ps = sent t ps := rfl

theorem timerTick_of_end (n : Nat) (e : exec .evTimer s = .next t) (h : t.faultBit = true ∨ t.scan = 0)
    (ps : List (List Byte)) : timerTick (n + 1) s ps = (t, sent t ps) := by
  rw [timerTick, e]
  exact if_pos h

theorem timerTick_of_goes_on (n : Nat) (e : exec .evTimer s = .next t) (hf : t.faultBit = false) (h : t.scan ≠ 0)
    (ps : List (List Byte)) : timerTick (n + 1) s ps = timerTick n t (sent t ps) := by
  rw [timerTick, e]
  exact if_neg (not_or.2 ⟨by rw [hf]; exact Bool.false_ne_true, h⟩)

/-- A tick depends on its state through its first command only. -/
theorem timerTick_congr (n : Nat) (e : exec .evTimer s = exec .evTimer t) (ps : List (List Byte)) :
    timerTick (n + 1) s ps = timerTick (n + 1) t ps := by
  rw [timerTick, e, timerTick]
  obtain ⟨u, hu⟩ : ∃ u, exec .evTimer t = .next u := ⟨_, exec_evTimer t⟩
  rw [hu]

/-! ### The simulation -/

/-- The two loops have ended alike but for the cursor, and the tick, unless it faulted, with the cursor 0. -/
def TickAgrees (a b : State × List (List Byte)) : Prop :=
  a.1.setScan 0 = b.1 ∧ a.2 = b.2 ∧ (b.1.faultBit = false → a.1.scan = 0)

theorem tickAgrees_setScan (h : t.faultBit = true) (v : BitVec 10) (ps : List (List Byte)) :
    TickAgrees (t.setScan v, ps) (t.setScan 0, ps) :=
  ⟨rfl, rfl, fun hf => by simp [h] at hf⟩

theorem tickAgrees_self (h : t.scan = 0) (ps : List (List Byte)) : TickAgrees (t, ps) (t, ps) :=
  ⟨by rw [← h, setScan_self], rfl, fun _ => h⟩

section Round

variable {m d : Nat} (hinv : s.Inv) (hf : s.faultBit = false) (hscan : s.scan.toNat < totalSlots s.cfg)

theorem not_before_cursor (s : State) (j : Nat) (hlo : s.scan.toNat ≤ j) (hhi : j < s.scan.toNat) : scanIdle s j :=
  absurd hhi (not_lt.2 hlo)

include hinv hf hscan

/-- The explicit loop polls the slot at the cursor first; that it holds the cursor at 0 changes nothing else. -/
theorem runCommands_pollsFrom_succ (ps : List (List Byte)) :
    runCommands (pollsFrom s s.scan.toNat (d + 1)) (s.setScan 0) ps =
      runCommands (pollsFrom s (s.scan.toNat + 1) d) ((pollIndex s.scan.toNat s).state.setScan 0)
        (sent (pollIndex s.scan.toNat s).state ps) := by
  have e := exec_pollCommand (s := s.setScan 0) hinv.cfg hscan
  rw [pollIndex_setScan, Run.map_state] at e
  exact runCommands_cons (s := s.setScan 0) _ hf e ps

/-- A poll that raises ends both loops. -/
theorem timerTick_agrees_of_raised (hp : pollIndex s.scan.toNat s = .raised t) (ps : List (List Byte)) :
    TickAgrees (timerTick (m + 1) s ps) (runCommands (pollsFrom s s.scan.toNat (d + 1)) (s.setScan 0) ps) := by
  have ht : t.faultBit = true := faultsIfRaised_pollIndex _ s t hp
  have e := exec_evTimer_of_raised hinv le_rfl hscan (not_before_cursor s) hp
  rw [runCommands_pollsFrom_succ hinv hf hscan, hp, Run.raised_state, runCommands_of_faulted (s := t.setScan 0) _ ht,
    timerTick_of_end m e (.inl ht), sent_setScan, sent_of_faulted ht]
  exact tickAgrees_setScan ht _ ps

/-- The poll of the last slot, with or without a packet, ends the tick with the cursor 0. -/
theorem timerTick_agrees_of_last (hlast : s.scan.toNat + 1 = totalSlots s.cfg) (hp : pollIndex s.scan.toNat s = .on t)
    (ps : List (List Byte)) :
    TickAgrees (timerTick (m + 1) s ps) (runCommands (pollsFrom s s.scan.toNat 1) (s.setScan 0) ps) := by
  have e : exec .evTimer s = .next (t.setScan 0) := by
    by_cases hlen : t.length = 0
    · exact exec_evTimer_of_last hinv le_rfl hscan (not_before_cursor s) hlast hp hlen
    · have h := exec_evTimer_of_packet hinv le_rfl hscan (not_before_cursor s) hp hlen
      rwa [cursorAfter, if_pos hlast] at h
  rw [runCommands_pollsFrom_succ hinv hf hscan, hp, pollsFrom_zero, runCommands, Run.on_state,
    timerTick_of_end m e (.inr rfl), sent_setScan]
  exact tickAgrees_self rfl _

/-- Before the last slot a tick is one from the next slot on, a command later if the poll left a packet, in the same command
if it was quiet. -/
theorem timerTick_of_on (hnext : s.scan.toNat + 1 < totalSlots s.cfg) (hp : pollIndex s.scan.toNat s = .on t)
    (hm : d + 1 ≤ m) (ps : List (List Byte)) :
    ∃ m', d ≤ m' ∧ timerTick (m + 1) s ps = timerTick (m' + 1) (t.setScan (s.scan + 1)) (sent t ps) := by
  have ht : t.faultBit = false := (faultKeptIfOn_pollIndex (Config.ok_room hinv.cfg) _ t hp).trans hf
  have hN := (Config.ok_totalSlots hinv.cfg).2
  by_cases hlen : t.length = 0
  · have hpoll : exec (pollCommand s s.scan.toNat) s = .next t := by
      rw [exec_pollCommand hinv.cfg hscan, hp, Run.on_state]
    have e := (timerGoesOnPastAQuietPoll s t hinv hscan hpoll ht hf hlen).1 hnext
    exact ⟨m, by omega, by rw [sent_of_empty hlen]; exact timerTick_congr m e ps⟩
  · have e := exec_evTimer_of_packet hinv le_rfl hscan (not_before_cursor s) hp hlen
    have hcursor : cursorAfter s s.scan.toNat = s.scan + 1 := by
      rw [cursorAfter, if_neg hnext.ne]
      bv_omega
    have hscan0 : s.scan + 1 ≠ 0 := by bv_omega
    obtain ⟨m', rfl⟩ : ∃ m', m = m' + 1 := ⟨m - 1, by omega⟩
    rw [hcursor] at e
    exact ⟨m', by omega, timerTick_of_goes_on (m' + 1) e ht hscan0 ps⟩

end Round

/-- A poll leaves a block that meets the invariant with the cursor on any slot. -/
theorem inv_pollIndex_setScan (hinv : s.Inv) {n : Nat} {v : BitVec 10} (hp : pollIndex n s = .on t)
    (hv : v.toNat < totalSlots s.cfg) : (t.setScan v).Inv := by
  have hkeeps := keeps_pollIndex (Config.ok_room hinv.cfg) n
  rw [hp, Run.on_state] at hkeeps
  refine (hkeeps.trans (keeps_setScan t v)).inv hinv fun _ => ?_
  rwa [State.setScan_scan, State.setScan_cfg, hkeeps.cfg]

/-- With `d` slots after the one at the cursor, a tick goes as the explicit loop over the slots left: each poll raises, is
the last, or leaves `d - 1` slots after the next. -/
theorem timerTick_agrees {m d : Nat} (hinv : s.Inv) (hf : s.faultBit = false)
    (hd : s.scan.toNat + (d + 1) = totalSlots s.cfg) (hm : d ≤ m) (ps : List (List Byte)) :
    TickAgrees (timerTick (m + 1) s ps) (runCommands (pollsFrom s s.scan.toNat (d + 1)) (s.setScan 0) ps) := by
  induction d generalizing s m ps with
  | zero =>
    cases hp : pollIndex s.scan.toNat s with
    | raised t => exact timerTick_agrees_of_raised hinv hf (by omega) hp ps
    | on t => exact timerTick_agrees_of_last hinv hf (by omega) hd hp ps
  | succ d ih =>
    cases hp : pollIndex s.scan.toNat s with
    | raised t => exact timerTick_agrees_of_raised hinv hf (by omega) hp ps
    | on t =>
      have hcfg : (t.setScan (s.scan + 1)).cfg = s.cfg := by
        simpa [hp] using (keeps_pollIndex (Config.ok_room hinv.cfg) s.scan.toNat).cfg
      have ht : t.faultBit = false := (faultKeptIfOn_pollIndex (Config.ok_room hinv.cfg) _ t hp).trans hf
      have hmoved : (s.scan + 1).toNat = s.scan.toNat + 1 := by
        have := (Config.ok_totalSlots hinv.cfg).2
        bv_omega
      obtain ⟨m', hm', htick⟩ := timerTick_of_on hinv hf (by omega) (by omega) hp hm ps
      have hrest := ih (s := t.setScan (s.scan + 1)) (inv_pollIndex_setScan hinv hp (by omega)) ht
        (by rw [hcfg, State.setScan_scan]; omega) hm' (sent t ps)
      rw [pollsFrom_congr hcfg, State.setScan_scan, hmoved] at hrest
      rw [htick, runCommands_pollsFrom_succ hinv hf (by omega), hp]
      exact hrest

/-- Settles O51: the simulation from the first slot on. -/
theorem timerTickEqualsTheExplicitLoop : Obligations.TimerTickEqualsTheExplicitLoop := by
  intro s hinv hf hscan
  obtain ⟨N, hN⟩ : ∃ N, totalSlots s.cfg = N + 1 := Nat.exists_eq_add_one.2 (Config.ok_totalSlots hinv.cfg).1
  have h := timerTick_agrees (d := N) hinv hf (by rw [hscan, hN]; exact Nat.zero_add _) le_rfl []
  have hstart : s.setScan 0 = s := by rw [← hscan, setScan_self]
  have hfirst : s.scan.toNat = 0 := by rw [hscan]; rfl
  rwa [hstart, hfirst, ← hN, ← explicitLoop_eq] at h

end Sys2Proof.Machine
end

section
/-! The back-end port (43_backend_port.md R210 to R214): which slot a request names, its frame, and what the answer taken
leaves in the registers, the named slot and the bytes of `buf`. -/

namespace Sys2Proof.Machine

/-! ### The slot a request names (43_backend_port.md R211) -/

theorem namesTcp_iff {k : PbeKind} : namesTcp k = true ↔ k ≠ .segReject ∧ k ≠ .udpIn ∧ k ≠ .udpPoll := by
  cases k <;> decide

theorem namesUdp_iff {k : PbeKind} : namesUdp k = true ↔ k = .udpIn ∨ k = .udpPoll := by
  cases k <;> decide

/-- A request names a slot of one table only. -/
theorem namesTcp_eq_false_of_namesUdp {k : PbeKind} (h : namesUdp k = true) : namesTcp k = false := by
  rcases namesUdp_iff.1 h with rfl | rfl <;> rfl

/-! ### The frame (43_backend_port.md R214) -/

theorem pbe_tcpSlot_other {k : PbeKind} {slot j : Nat} (s : State)
    (h : j ≠ slot ∨ k = .segReject ∨ k = .udpIn ∨ k = .udpPoll) : (pbe k slot s).tcpSlot j = s.tcpSlot j := by
  refine (slotsKept_pbe k slot s).tcp j ?_
  rintro ⟨hnames, rfl⟩
  obtain ⟨hreject, hin, hpoll⟩ := namesTcp_iff.1 hnames
  rcases h with h | h | h | h
  exacts [h rfl, hreject h, hin h, hpoll h]

theorem pbe_udpSlot_other {k : PbeKind} {slot j : Nat} (s : State)
    (h : j ≠ slot ∨ (k ≠ .udpIn ∧ k ≠ .udpPoll)) : (pbe k slot s).udpSlot j = s.udpSlot j := by
  refine (slotsKept_pbe k slot s).udp j ?_
  rintro ⟨hnames, rfl⟩
  rcases h with h | ⟨hin, hpoll⟩
  · exact h rfl
  · exact (namesUdp_iff.1 hnames).elim hin hpoll

/-- Settles O52: the frame of a request, with the kinds that name a slot listed. -/
theorem backendKeepsItsFrame : Obligations.BackendKeepsItsFrame := by
  intro k slot s
  have h := pbe_frame k slot s
  exact ⟨h.cfg, h.csbase, h.cslen, h.csres, h.acc32, h.op16, h.scan, h.ipid, h.faultBit, h.fcode, h.script, h.rdata,
    h.requests, h.bufByte, fun _ => pbe_tcpSlot_other s, fun _ => pbe_udpSlot_other s⟩

/-! ### What an answer leaves -/

section Answer

variable (k : PbeKind) (slot : Nat) (a : PbeAnswer) (s : State)

/-- The slot part of an answer reaches the two tables only. -/
theorem pbeSlot_eq : pbeSlot k slot a s = { s with tcp := (pbeSlot k slot a s).tcp, udp := (pbeSlot k slot a s).udp } := by
  rcases pbeSlot_cases k slot a s with e | ⟨-, v, e⟩ | ⟨-, v, e⟩ <;> rw [e] <;> rfl

/-- An answer sets the four registers and otherwise reaches the two tables and the two regions only. -/
theorem applyAnswer_eq : applyAnswer k slot a s =
    { s with
      length := a.length.getD s.length, appdata := a.appdata.getD s.appdata
      sndptr := a.sndptr.getD s.sndptr, sndlen := a.sndlen.getD s.sndlen
      tcp := (applyAnswer k slot a s).tcp, udp := (applyAnswer k slot a s).udp
      buf := (applyAnswer k slot a s).buf, snd := (applyAnswer k slot a s).snd } := by
  unfold applyAnswer
  rw [pbeSlot_eq, pbeSndWrites_eq, pbeBufWrites_eq]
  rfl

theorem applyAnswer_answers : (applyAnswer k slot a s).answers = s.answers := by
  rw [applyAnswer_eq]

theorem applyAnswer_length : (applyAnswer k slot a s).length = a.length.getD s.length := by
  rw [applyAnswer_eq]

theorem applyAnswer_appdata : (applyAnswer k slot a s).appdata = a.appdata.getD s.appdata := by
  rw [applyAnswer_eq]

theorem applyAnswer_sndptr : (applyAnswer k slot a s).sndptr = a.sndptr.getD s.sndptr := by
  rw [applyAnswer_eq]

theorem applyAnswer_sndlen : (applyAnswer k slot a s).sndlen = a.sndlen.getD s.sndlen := by
  rw [applyAnswer_eq]

theorem pbeTcpSlot_tcpSlot (h : slot < s.tcp.length) :
    (pbeTcpSlot slot a s).tcpSlot slot = a.tcp.getD (s.tcpSlot slot) := by
  unfold pbeTcpSlot
  cases a.tcp with
  | none => rfl
  | some v => exact State.tcpSlot_setTcp_same s v h

theorem pbeUdpSlot_udpSlot (h : slot < s.udp.length) :
    (pbeUdpSlot slot a s).udpSlot slot = a.udp.getD (s.udpSlot slot) := by
  unfold pbeUdpSlot
  cases a.udp with
  | none => rfl
  | some v => exact State.udpSlot_setUdp_same s v h

/-- The writes to the two regions leave the tables. -/
theorem pbeWrites_tcp (l m : List (Nat × Byte)) : (pbeSndWrites m (pbeBufWrites l s)).tcp = s.tcp := by
  rw [pbeSndWrites_eq, pbeBufWrites_eq]

theorem pbeWrites_udp (l m : List (Nat × Byte)) : (pbeSndWrites m (pbeBufWrites l s)).udp = s.udp := by
  rw [pbeSndWrites_eq, pbeBufWrites_eq]

theorem applyAnswer_tcpSlot (hk : namesTcp k = true) (h : slot < s.tcp.length) :
    (applyAnswer k slot a s).tcpSlot slot = a.tcp.getD (s.tcpSlot slot) := by
  have htcp := pbeWrites_tcp s a.bufWrites a.sndWrites
  calc (applyAnswer k slot a s).tcpSlot slot
      = (pbeTcpSlot slot a (pbeSndWrites a.sndWrites (pbeBufWrites a.bufWrites s))).tcpSlot slot := by
        rw [applyAnswer, pbeSlot, if_pos hk]; rfl
    _ = a.tcp.getD ((pbeSndWrites a.sndWrites (pbeBufWrites a.bufWrites s)).tcpSlot slot) :=
        pbeTcpSlot_tcpSlot slot a _ (by rwa [htcp])
    _ = a.tcp.getD (s.tcpSlot slot) := by rw [State.tcpSlot, htcp, State.tcpSlot]

theorem applyAnswer_udpSlot (hk : namesUdp k = true) (h : slot < s.udp.length) :
    (applyAnswer k slot a s).udpSlot slot = a.udp.getD (s.udpSlot slot) := by
  have hudp := pbeWrites_udp s a.bufWrites a.sndWrites
  calc (applyAnswer k slot a s).udpSlot slot
      = (pbeUdpSlot slot a (pbeSndWrites a.sndWrites (pbeBufWrites a.bufWrites s))).udpSlot slot := by
        rw [applyAnswer, pbeSlot, namesTcp_eq_false_of_namesUdp hk, if_neg Bool.false_ne_true, if_pos hk]; rfl
    _ = a.udp.getD ((pbeSndWrites a.sndWrites (pbeBufWrites a.bufWrites s)).udpSlot slot) :=
        pbeUdpSlot_udpSlot slot a _ (by rwa [hudp])
    _ = a.udp.getD (s.udpSlot slot) := by rw [State.udpSlot, hudp, State.udpSlot]

/-- After the writes to `buf`, the rest of an answer leaves every byte of it. -/
theorem applyAnswer_bufByte (x : Nat) :
    (applyAnswer k slot a s).bufByte x = (pbeBufWrites a.bufWrites s).bufByte x := by
  rw [applyAnswer, pbeSlot_eq, pbeSndWrites_eq]
  rfl

/-- A single byte written inside `buf[L : BUF_SIZE]` is stored (43_backend_port.md R214). -/
theorem applyAnswer_bufByte_of_singleton {x : Nat} {v : Byte} (hw : a.bufWrites = [(x, v)])
    (hlo : s.cfg.llHdrLen ≤ x) (hhi : x < bufSize s.cfg) : (applyAnswer k slot a s).bufByte x = v := by
  rw [applyAnswer_bufByte, hw, pbeBufWrites, if_pos ⟨hlo, hhi⟩, pbeBufWrites, State.bufByte_storeBuf_same]

end Answer

/-! ### The listed answer (43_backend_port.md R210, R212; log 4) -/

/-- A request takes the first answer of the list and is logged before the answer is applied. -/
theorem pbe_of_answers {s : State} {a : PbeAnswer} {rest : List PbeAnswer} (h : s.answers = a :: rest) (k : PbeKind)
    (slot : Nat) : pbe k slot s = applyAnswer k slot a (logRequest k slot { s with answers := rest }) := by
  rw [pbe, nextAnswer, h]

/-- Settles O53: the answer taken is applied to a state with the registers, slots and parameters of `s`. -/
theorem listedAnswerIsGiven : Obligations.ListedAnswerIsGiven := by
  intro s k slot a rest h
  rw [pbe_of_answers h]
  exact ⟨applyAnswer_answers .., applyAnswer_length .., applyAnswer_appdata .., applyAnswer_sndptr ..,
    applyAnswer_sndlen .., fun hk hslot => applyAnswer_tcpSlot k slot a _ hk hslot,
    fun hk hslot => applyAnswer_udpSlot k slot a _ hk hslot,
    fun _ _ hw hlo hhi => applyAnswer_bufByte_of_singleton k slot a _ hw hlo hhi⟩

end Sys2Proof.Machine
end

section
/-! The faulted state (60_exceptions.md R248): which host accesses touch `STATUS`, and re-entry (R249): what an abandoned command
leaves of the request log, the answers and `snd`. -/

namespace Sys2Proof.Machine

open Sys2Proof.Claims

/-! ### Host accesses to storage (60_exceptions.md R248) -/

/-- `STATUS` and the log of back-end requests are the same in both states. -/
structure SameFault (s t : State) : Prop where
  faultBit : t.faultBit = s.faultBit
  fcode : t.fcode = s.fcode
  requests : t.requests = s.requests

theorem sameFault_refl (s : State) : SameFault s s := ⟨rfl, rfl, rfl⟩

theorem sameFault_setRdata (s : State) (v : Word) : SameFault s (s.setRdata v) := ⟨rfl, rfl, rfl⟩

/-- `STATUS` is no register the host can write (10_state.md R42). -/
theorem sameFault_writeReg (s : State) (off : Nat) (v : Word) : SameFault s (writeReg s off v) := by
  unfold writeReg
  split <;> exact ⟨rfl, rfl, rfl⟩

section Accesses

variable {s t : State} {width : Width} {off : BitVec 17} {addr v : Word} {b : Byte}

/-- A read of the window stores the data read and nothing else (10_state.md R42; log 7). -/
theorem eq_setRdata_of_hostRead (e : hostRead width off s = .next t) : ∃ d, t = s.setRdata d := by
  unfold hostRead at e
  split at e
  case h_1 =>
    split_ifs at e
    cases e
    exact ⟨_, rfl⟩
  all_goals
    cases e
    exact ⟨_, rfl⟩

theorem eq_setRdata_of_hostSndRead (e : hostSndRead addr s = .next t) : ∃ d, t = s.setRdata d := by
  unfold hostSndRead at e
  split_ifs at e
  cases e
  exact ⟨_, rfl⟩

theorem eq_storeSnd_of_hostSndWrite (e : hostSndWrite addr b s = .next t) : t = s.storeSnd addr.toNat b := by
  unfold hostSndWrite at e
  split_ifs at e
  cases e
  rfl

/-- No place of the window but `CMD` reaches `STATUS` or the port. -/
theorem sameFault_hostWrite (e : hostWrite width off v s = .next t) : SameFault s t := by
  cases hp : placeOf s.cfg off.toNat with
  | buf a =>
    simp only [hostWrite, hp] at e
    split_ifs at e
    cases e
    exact ⟨rfl, rfl, rfl⟩
  | reg r =>
    rw [hostWrite_reg hp, Host.Outcome.next.injEq] at e
    subst e
    split_ifs
    · exact sameFault_writeReg s r v
    · exact sameFault_refl s
  | tcp k n =>
    rw [hostWrite_tcp hp, Host.Outcome.next.injEq] at e
    subst e
    split_ifs <;> exact ⟨rfl, rfl, rfl⟩
  | udp k n =>
    rw [hostWrite_udp hp, Host.Outcome.next.injEq] at e
    subst e
    split_ifs <;> exact ⟨rfl, rfl, rfl⟩
  | reserved =>
    rw [hostWrite_reserved hp, Host.Outcome.next.injEq] at e
    subst e
    exact sameFault_refl s

end Accesses

/-! ### Two overlapping `CMD` writes (60_exceptions.md R249; log 10) -/

section Overlap

variable {s : State} {first second : Word} {i : Instr}

/-- A faulted block ignores both words (60_exceptions.md R248). -/
theorem step_overlap_of_faulted (hf : s.faultBit = true) : step (doing (.overlap first second) s) = .next s :=
  step_doing_done (if_pos hf)

/-- A legal first word makes the second a re-entry, whatever the second is. -/
theorem step_overlap_of_legal (hf : s.faultBit = false) (hd : decode s.cfg.udpEn first = .ok i) :
    step (doing (.overlap first second) s) = .next (reentryState i s) :=
  step_doing_done (by simp [hostAct, writeCmdTwice, hf, hd])

end Overlap

/-- In a faulted block every action but reset is an access to storage or an ignored `CMD` write. -/
theorem sameFault_step {s t : State} {op : HostOp} (hf : s.faultBit = true) (hop : op ≠ .reset)
    (e : step (doing op s) = .next t) : SameFault s t := by
  cases op with
  | write width off v =>
    by_cases hcmd : off = cmdOffset ∧ width = .word
    · obtain ⟨rfl, rfl⟩ := hcmd
      cases (faultedBlockIgnoresCommands s v hf).symm.trans e
      exact sameFault_refl s
    · rw [step_write hcmd] at e
      exact sameFault_hostWrite e
  | read width off =>
    obtain ⟨d, rfl⟩ := eq_setRdata_of_hostRead ((step_read width off s).symm.trans e)
    exact sameFault_setRdata s d
  | sndWrite addr b =>
    rw [step_doing_done rfl] at e
    rw [eq_storeSnd_of_hostSndWrite e]
    exact ⟨rfl, rfl, rfl⟩
  | sndRead addr =>
    rw [step_doing_done rfl] at e
    obtain ⟨d, rfl⟩ := eq_setRdata_of_hostSndRead e
    exact sameFault_setRdata s d
  | overlap first second =>
    cases (step_overlap_of_faulted hf).symm.trans e
    exact sameFault_refl s
  | reset => exact absurd rfl hop

/-- Settles O7: the action leaves `STATUS` and the request log, so `FAULT` stays 1. -/
theorem onlyResetLeavesTheFault : Obligations.OnlyResetLeavesTheFault := by
  intro s t op hf hop e
  obtain ⟨hbit, hcode, hrequests⟩ := sameFault_step hf hop e
  exact ⟨hbit.trans hf, hcode, hrequests⟩

/-! ### The requests of an abandoned command (60_exceptions.md R249; log 10) -/

/-- Every command ends in a next state, a contract fault too (60_exceptions.md R247). -/
theorem exec_eq_completed (i : Instr) (s : State) : exec i s = .next (completed i s) := by
  obtain ⟨t, ht⟩ : ∃ t, exec i s = .next t := by cases i <;> exact ⟨_, rfl⟩
  rw [completed, ht]

/-- The checksum unit makes no request (20_memory.md R51). -/
theorem completed_requests_of_checksum {i : Instr} (hi : packetCommand i = false) (s : State) :
    (completed i s).requests = s.requests := by
  rcases exec_checksum_cases hi (exec_eq_completed i s) with ⟨v, e⟩ | ⟨v, e⟩ | e <;> rw [e] <;> rfl

/-- A command adds its requests in front of the log (log 20). -/
theorem completed_requests {s : State} (hr : Room s.cfg) (i : Instr) :
    ∃ l, (completed i s).requests = l ++ s.requests := by
  cases hi : packetCommand i with
  | false => exact ⟨[], completed_requests_of_checksum hi s⟩
  | true => exact (exec_keeps hi hr (exec_eq_completed i s)).requests

/-- No checksum command makes a request, nor does `EV_UDPSEND` (20_memory.md R51, 41_dispatch.md R164). -/
theorem completed_requests_of_none {i : Instr} {s : State} (hr : Room s.cfg)
    (hi : (completed i s).requests = s.requests ∨ ¬ ofPacketUnits i ∨ ∃ slot, i = .evUdpsend slot) :
    (completed i s).requests = s.requests := by
  rcases hi with h | h | ⟨slot, rfl⟩
  · exact h
  · rw [ofPacketUnits_iff, Bool.not_eq_true] at h
    exact completed_requests_of_checksum h s
  · exact udpSend_requests hr slot.toNat

/-- The requests an abandoned command drops are its own, so those made before it stay. -/
theorem suffix_reentryState_requests {s : State} (hr : Room s.cfg) (i : Instr) :
    s.requests <:+ (reentryState i s).requests := by
  obtain ⟨l, hl⟩ := completed_requests hr i
  have hdropped : requestCount i s - requestsMade i s ≤ l.length := by
    rw [requestCount, hl, List.length_append, Nat.add_sub_cancel]
    exact Nat.sub_le _ _
  show s.requests <:+ (completed i s).requests.drop (requestCount i s - requestsMade i s)
  rw [hl, List.drop_append_of_le_length hdropped]
  exact List.suffix_append _ _

/-- A command without a request leaves the log, the answers and `snd` when it is abandoned. -/
theorem reentryState_of_no_request {i : Instr} {s : State} (h : (completed i s).requests = s.requests) :
    (reentryState i s).requests = s.requests ∧ (reentryState i s).answers = s.answers ∧
      ∀ a, (reentryState i s).sndByte a = s.sndByte a := by
  have hcount : requestCount i s = 0 := by rw [requestCount, h, Nat.sub_self]
  have habandoned := abandoned_of_no_request i s hcount
  refine ⟨?_, ?_, fun a => State.sndByte_congr ?_ (reentryState_sndDraw i s) a⟩
  · show (completed i s).requests.drop (requestCount i s - requestsMade i s) = s.requests
    rw [hcount, Nat.zero_sub, List.drop_zero, h]
  · rw [reentryState_answers, habandoned]
  · rw [reentryState_snd, habandoned]

/-- Settles O10: the next state is `reentryState`, which the second word is no part of. -/
theorem overlappingCommandIsReentry : Obligations.OverlappingCommandIsReentry := by
  intro s w second i hok hf hd
  have hr := Config.ok_room hok
  exact ⟨reentryState i s, completed i s, step_overlap_of_legal hf hd, step_overlap_of_legal hf hd,
    exec_eq_completed i s, rfl, rfl, rfl, rfl, suffix_reentryState_requests hr i,
    reentryState_requests_suffix i s, (sndOnly_answersTaken _ _ s).answers, reentryState_tcp_length i s,
    reentryState_udp_length i s, fun h => reentryState_of_no_request (completed_requests_of_none hr h)⟩

end Sys2Proof.Machine
end

section
/-! `SLOT_RANGE` (60_exceptions.md R245): each slot command raises it before any write, and the polls of `EV_TIMER`, whose cursor
is below `N_TOT`, never do. -/

namespace Sys2Proof.Machine

open Sys2Proof.Claims

/-! ### The check -/

section Check

variable {s : State} {k : Nat}

theorem tcpPoll_of_range (h : s.cfg.nTcp ≤ k) : tcpPoll k s = raise .slotRange s := if_pos h

theorem pendingSend_of_range (h : s.cfg.nTcp ≤ k) : pendingSend k s = raise .slotRange s := if_pos h

theorem udpPoll_of_range (h : s.cfg.nUdp ≤ k) : udpPoll k s = raise .slotRange s := if_pos h

theorem udpSend_of_range (h : s.cfg.nUdp ≤ k) : udpSend k s = raise .slotRange s := if_pos h

end Check

/-- A packet or polling command that is `SLOT_RANGE` alone answers the faulted state. -/
theorem exec_of_slotRange {i : Instr} {s : State} (hi : packetCommand i = true)
    (h : packetRun i s = raise .slotRange s) : exec i s = .next (faulted s 2) := by
  rw [exec_eq_packetRun hi, h]
  rfl

/-! ### Pieces that never raise it -/

/-- From `s` to `t` no `SLOT_RANGE` is raised: `FCODE` is its code in `t` only if it was in `s`. -/
def NoSlotRange (s t : State) : Prop := t.fcode = 2 → s.fcode = 2

theorem noSlotRange_of_fcode {s t : State} (h : t.fcode = s.fcode) : NoSlotRange s t := fun e => h.symm.trans e

theorem NoSlotRange.trans {s t u : State} (h : NoSlotRange s t) (g : NoSlotRange t u) : NoSlotRange s u :=
  fun e => h (g e)

/-- The codes are distinct (60_exceptions.md R246). -/
theorem noSlotRange_raise {c : ContractFault} (hc : c ≠ .slotRange) (s : State) : NoSlotRange s (raise c s).state := by
  intro e
  have hcode : faultCode c = 2 := e
  cases c with
  | slotRange => exact absurd rfl hc
  | illegalCmd | reentry | range | badResponse => simp [faultCode] at hcode

theorem noSlotRange_andThen {s : State} {r : Run} {f : State → Run} (h : NoSlotRange s r.state)
    (g : ∀ t, r = .on t → NoSlotRange t (f t).state) : NoSlotRange s (r.andThen f).state := by
  cases r with
  | on t => exact h.trans (g t rfl)
  | raised t => exact h

theorem noSlotRange_tcpFinalise (s : State) : NoSlotRange s (tcpFinalise s).state := by
  rcases tcpFinalise_cases s with ⟨-, e⟩ | ⟨-, -, e⟩ | ⟨-, -, e⟩ <;> rw [e]
  · exact noSlotRange_of_fcode rfl
  · exact noSlotRange_of_fcode (by rw [Run.on_state, (tcpFilled_change s).eq])
  · exact noSlotRange_raise (by decide) s

theorem noSlotRange_udpFinalise {s : State} (hr : Room s.cfg) (u : Nat) : NoSlotRange s (udpFinalise u s).state := by
  rcases udpFinalise_cases hr.max u with ⟨-, e⟩ | ⟨-, -, e⟩ | ⟨-, -, e⟩ <;> rw [e]
  · exact noSlotRange_of_fcode rfl
  · exact noSlotRange_of_fcode (by rw [Run.on_state, (udpFilled_change u s).eq]; rfl)
  · exact noSlotRange_raise (by decide) s

theorem noSlotRange_tcpRequest (k : PbeKind) (n : Nat) (s : State) : NoSlotRange s (tcpRequest k n s).state :=
  (noSlotRange_of_fcode (pbe_frame k n s).fcode).trans (noSlotRange_tcpFinalise _)

theorem noSlotRange_udpRequest {s : State} (hr : Room s.cfg) (k : PbeKind) (u : Nat) :
    NoSlotRange s (udpFinalise u (pbe k u s)).state := by
  have hframe := pbe_frame k u s
  exact (noSlotRange_of_fcode hframe.fcode).trans (noSlotRange_udpFinalise (by rw [hframe.cfg]; exact hr) u)

theorem noSlotRange_pollActive (k : Nat) (t : TcpSlot) (s : State) : NoSlotRange s (pollActive k t s).state := by
  rcases pollActive_cases k t s with ⟨v, e⟩ | ⟨r, v, -, e⟩ <;> rw [e]
  · exact noSlotRange_andThen (noSlotRange_tcpRequest .abort k (s.setTcp k v)) fun t _ => noSlotRange_of_fcode rfl
  · exact noSlotRange_tcpRequest r k (s.setTcp k v)

/-! ### The polls of `EV_TIMER` -/

section Timer

variable {s : State} {k : Nat}

theorem noSlotRange_tcpPoll (hk : k < s.cfg.nTcp) : NoSlotRange s (tcpPoll k s).state := by
  rw [tcpPoll, if_neg (not_le.2 hk)]
  split_ifs
  · exact noSlotRange_pollActive k _ ((s.setLength 0).setSndlen 0)
  · exact noSlotRange_of_fcode rfl

theorem noSlotRange_udpPoll (hr : Room s.cfg) (hk : k < s.cfg.nUdp) : NoSlotRange s (udpPoll k s).state := by
  rw [udpPoll, if_neg (not_le.2 hk)]
  split_ifs
  · exact noSlotRange_udpRequest (s := (s.setLength 0).setSndlen 0) hr .udpPoll k
  · exact noSlotRange_of_fcode rfl

/-- A scan index below `N_TOT` names a slot of its table (10_state.md R37). -/
theorem noSlotRange_pollIndex (hr : Room s.cfg) (hk : k < totalSlots s.cfg) : NoSlotRange s (pollIndex k s).state := by
  unfold pollIndex
  split_ifs with ht
  · exact noSlotRange_tcpPoll ht
  · exact noSlotRange_udpPoll hr (sub_nTcp_lt_nUdp hk ht).1

theorem noSlotRange_timerLoop (n : Nat) (hr : Room s.cfg) : NoSlotRange s (timerLoop n s).state := by
  induction n generalizing s with
  | zero => exact noSlotRange_of_fcode rfl
  | succ n ih =>
    unfold timerLoop
    split_ifs with hk
    · have hcfg := (keeps_pollIndex (s := s.setScan (s.scan + 1)) hr s.scan.toNat).cfg
      refine noSlotRange_andThen (noSlotRange_pollIndex (s := s.setScan (s.scan + 1)) hr hk) fun t ht => ?_
      rw [ht] at hcfg
      split_ifs
      · exact ih (by rw [show t.cfg = s.cfg from hcfg]; exact hr)
      · exact noSlotRange_of_fcode rfl
    · exact noSlotRange_of_fcode rfl

theorem noSlotRange_evTimer (hr : Room s.cfg) : NoSlotRange s (packetRun .evTimer s).state := by
  refine noSlotRange_andThen (noSlotRange_timerLoop _ (s := s.setLength 0) hr) fun t _ => ?_
  unfold scanWrap
  split_ifs <;> exact noSlotRange_of_fcode rfl

end Timer

/-- Settles O39: the check is the first test of each slot command, and `EV_TIMER` starts with `FCODE` 0. -/
theorem slotRangeIsCheckedFirst : Obligations.SlotRangeIsCheckedFirst := by
  refine ⟨fun s slot h => ⟨?_, ?_⟩, fun s slot h => ⟨?_, ?_, ?_⟩, fun s t hinv hf e hcode => ?_⟩
  · exact exec_of_slotRange rfl (pendingSend_of_range h)
  · exact exec_of_slotRange rfl (tcpPoll_of_range h)
  · exact exec_of_slotRange rfl (udpSend_of_range h)
  · exact exec_of_slotRange rfl (udpPoll_of_range h)
  · exact exec_of_slotRange rfl (udpPoll_of_range h)
  · obtain ⟨hzero, -⟩ := hinv.status
    rw [eq_packetRun_of_exec rfl e] at hcode
    have htwo := noSlotRange_evTimer (Config.ok_room hinv.cfg) hcode
    rw [hzero hf] at htwo
    exact absurd htwo (by decide)

end Sys2Proof.Machine
end
